-- ==== Sys2Proof/Word.lean ====
section
/-! DEFINITION. The word types of the block (00_scope.md R5, R6): a byte, a 16-bit field, a command word. -/

namespace Sys2Proof

/-- An 8-bit value: an accumulator, a device address, one byte of a frame (R6). -/
abbrev Byte := BitVec 8

/-- A 16-bit value: a register address, a count, a value, a CRC (R5). -/
abbrev Half := BitVec 16

/-- The 48-bit command word of the CMD port (30_encoding.md R53). -/
abbrev CmdWord := BitVec 48

end Sys2Proof
end

