-- ==== Sys2Proof/Config.lean ====
section
/-! DEFINITION. The implementation parameters of 00_scope.md R5 and the parameters of 92_eei_decisions.md. -/

namespace Sys2Proof.Config

open Sys2Proof

/-- `FUNC_READ` (R5): function code "read holding registers". -/
@[simp] abbrev funcRead : Byte := 0x03

/-- `FUNC_WRITE` (R5): function code "write single register". -/
@[simp] abbrev funcWrite : Byte := 0x06

/-- `REQ_LEN` (R5): length of every request frame. -/
@[simp] abbrev reqLen : Nat := 8

/-- `RSP_OVERHEAD` (R5): response length minus payloadLen, and the least length at which a frame is possible. -/
@[simp] abbrev rspOverhead : Nat := 5

/-- `DEFAULT_ADDR` (R5): reset value of the expected device address. -/
@[simp] abbrev defaultAddr : Byte := 0x50

/-- `RX_CAP` (R5): the overflow guard fires when the buffer is longer than this. -/
@[simp] abbrev rxCap : Nat := 256

/-- `CRC_INIT_HI` (R5). -/
@[simp] abbrev crcInitHi : Byte := 0xFF

/-- `CRC_INIT_LO` (R5). -/
@[simp] abbrev crcInitLo : Byte := 0xFF

/-- `ODD_LEN_REJECT` (R5, D10, conflict C3): an odd payloadLen is rejected. The spec's default. The parser's head test, the
decoder of format RS and the check of a response's payload take the value as an argument, so that the other reading can be
spoken of too (log entry 8). -/
@[simp] abbrev oddLenReject : Bool := true

/-- `READ_ALL_REG` (R5): first register of the block the host polls. -/
@[simp] abbrev readAllReg : Half := 0x34

/-- `READ_ALL_COUNT` (R5). -/
@[simp] abbrev readAllCount : Half := 19

/-- `UNLOCK_REG`, OPEN (R5, R40, D22): no body, so nothing can be proved of its value (log entry 7). -/
opaque unlockReg : Half

/-- `UNLOCK_VAL`, OPEN (R5, R40, D22; log entry 7). -/
opaque unlockVal : Half

/-- `SAVE_REG`, OPEN (R5, R40, D22; log entry 7). -/
opaque saveReg : Half

/-- `SAVE_VAL`, OPEN (R5, R40, D22; log entry 7). -/
opaque saveVal : Half

/-- D11: the first byte of a payload pair is the high byte. Boundary walk only (log entry 9). -/
@[simp] abbrev pairHighFirst : Bool := true

/-- U1, R153: a raw word above this is taken as negative. Boundary walk only (log entry 9). -/
@[simp] abbrev signThreshold : Nat := 32768

/-- U1, R153: what is subtracted then; 65535 as the document insists, not 65536. Boundary walk only (log entry 9). -/
@[simp] abbrev signSubtrahend : Nat := 65535

/-- U2, R154: the multiplier of the vibration-velocity row. Boundary walk only (log entry 9). -/
abbrev vibVelocityScale : Rat := 25 / 8192

end Sys2Proof.Config
end

