-- ==== Sys2Proof/Machine/Crc.lean ====
section
/-! DEFINITION. The CRC arithmetic (40_crc_engine.md): byte halves, the two tables, crcStep, crc16, and the canonical
bitwise CRC-16/MODBUS. -/

namespace Sys2Proof.Machine

open Sys2Proof

/-- `hi8(v) = v[15:8]` (R6). -/
def hi8 (v : Half) : Byte := v.extractLsb' 8 8

/-- `lo8(v) = v[7:0]` (R6). -/
def lo8 (v : Half) : Byte := v.extractLsb' 0 8

/-- The 16-bit value of two bytes, `(hi << 8) | lo` (R6, R12, R34, R86). -/
def join (hi lo : Byte) : Half := (hi.setWidth 16 <<< 8) ||| lo.setWidth 16

/-- `TABHI` as R81 lists it: one number a row of sixteen entries, the entry of column 0 in its highest byte (log entry 6). -/
def tabHiRows : List Nat :=
  [0x00C1814001C0804101C0804100C18140,
   0x01C0804100C1814000C1814001C08041,
   0x01C0804100C1814000C1814001C08041,
   0x00C1814001C0804101C0804100C18140,
   0x01C0804100C1814000C1814001C08041,
   0x00C1814001C0804101C0804100C18140,
   0x00C1814001C0804101C0804100C18140,
   0x01C0804100C1814000C1814001C08041,
   0x01C0804100C1814000C1814001C08041,
   0x00C1814001C0804101C0804100C18140,
   0x00C1814001C0804101C0804100C18140,
   0x01C0804100C1814000C1814001C08041,
   0x00C1814001C0804101C0804100C18140,
   0x01C0804100C1814000C1814001C08041,
   0x01C0804100C1814000C1814001C08041,
   0x00C1814001C0804101C0804100C18140]

/-- `TABLO` as R81 lists it, in the same form (log entry 6). -/
def tabLoRows : List Nat :=
  [0x00C0C101C30302C2C60607C705C5C404,
   0xCC0C0DCD0FCFCE0E0ACACB0BC90908C8,
   0xD81819D91BDBDA1A1EDEDF1FDD1D1CDC,
   0x14D4D515D71716D6D21213D311D1D010,
   0xF03031F133F3F23236F6F737F53534F4,
   0x3CFCFD3DFF3F3EFEFA3A3BFB39F9F838,
   0x28E8E929EB2B2AEAEE2E2FEF2DEDEC2C,
   0xE42425E527E7E62622E2E323E12120E0,
   0xA06061A163A3A26266A6A767A56564A4,
   0x6CACAD6DAF6F6EAEAA6A6BAB69A9A868,
   0x78B8B979BB7B7ABABE7E7FBF7DBDBC7C,
   0xB47475B577B7B67672B2B373B17170B0,
   0x50909151935352929656579755959454,
   0x9C5C5D9D5F9F9E5E5A9A9B5B99595898,
   0x884849894B8B8A4A4E8E8F4F8D4D4C8C,
   0x44848545874746868242438341818040]

/-- The entry at an index of a table written in rows: row `i[7:4]`, column `i[3:0]` (R81). -/
def tableEntry (rows : List Nat) (i : Byte) : Byte :=
  BitVec.ofNat 8 (rows.getD (i.toNat / 16) 0 >>> (8 * (15 - i.toNat % 16)))

/-- `TABHI[i]` (R16, R81). -/
def tabHi (i : Byte) : Byte := tableEntry tabHiRows i

/-- `TABLO[i]` (R16, R81). -/
def tabLo (i : Byte) : Byte := tableEntry tabLoRows i

/-- `crcStep(hi, lo, b)` (R85): the running index from the high accumulator, then the two assignments. -/
def crcStep (acc : Byte × Byte) (b : Byte) : Byte × Byte :=
  (acc.2 ^^^ tabHi (acc.1 ^^^ b), tabLo (acc.1 ^^^ b))

/-- `crcStep` over a sequence, first byte first (R86, R89 (c)). -/
def crcRun (acc : Byte × Byte) (s : List Byte) : Byte × Byte := s.foldl crcStep acc

/-- `crc16(s)` (R86): private accumulators from 0xFF/0xFF, the high one in bits 15 to 8 of the result. -/
def crc16 (s : List Byte) : Half :=
  let acc := crcRun (Config.crcInitHi, Config.crcInitLo) s
  join acc.1 acc.2

/-- `crc16(s, n)` (R86): of the first `n` bytes only. R86 puts `n > len(s)` outside the contract and no rule calls it so; this
function is total, and there it answers crc16 of the whole of `s`, a DESIGN CHOICE of the model (log entry 13) that no
operation reaches. -/
def crc16First (s : List Byte) (n : Nat) : Half := crc16 (s.take n)

/-- One of the eight steps of the reflected polynomial 0xA001 (R81, R88). -/
def polyStep (c : Half) : Half := if c.getLsbD 0 then (c >>> 1) ^^^ 0xA001 else c >>> 1

/-- Eight repetitions of `polyStep` (R81, R88). -/
def polyStep8 (c : Half) : Half := Nat.repeat polyStep 8 c

/-- `T(i)`, the defining rule of the tables (R81). -/
def tableRule (i : Byte) : Half := polyStep8 (i.setWidth 16)

/-- One byte of the canonical bitwise definition (R88): into the low 8 bits, then eight steps. -/
def canonStep (reg : Half) (b : Byte) : Half := polyStep8 (reg ^^^ b.setWidth 16)

/-- `canon(s)` (R88): the table-free CRC-16/MODBUS register, from 0xFFFF, with no final exclusive or. -/
def canon (s : List Byte) : Half := s.foldl canonStep 0xFFFF

end Sys2Proof.Machine
end

