-- ==== Sys2Proof/Machine/Frames.lean ====
section
/-! DEFINITION. Operands into frames, and the fields of a response (30_encoding.md R50 to R56; 41_frame_assembler.md R102). -/

namespace Sys2Proof.Machine

open Sys2Proof

/-- `buildFrame(dev, fn, reg, val)` (R102): six bytes, each 16-bit field high byte first, and the CRC of the six, high byte
first. A pure function of its operands. -/
def buildFrame (dev fn : Byte) (reg val : Half) : List Byte :=
  let body := [dev, fn, hi8 reg, lo8 reg, hi8 val, lo8 val]
  let c := crc16First body 6
  body ++ [hi8 c, lo8 c]

/-- The bytes of format RS (R51): header, payload, trailer, high byte of the trailer first. -/
def responseFrame (address : Byte) (payload : List Byte) (crc : Half) : List Byte :=
  [address, Config.funcRead, BitVec.ofNat 8 payload.length] ++ payload ++ [hi8 crc, lo8 crc]

/-- The required total length of a response with header byte `n` (R56, R133): a natural number, never reduced. -/
def responseLength (n : Byte) : Nat := n.toNat + Config.rspOverhead

/-- `payload = buffer[3..3+N]` (R56). -/
def responsePayload (buf : List Byte) (n : Byte) : List Byte := (buf.drop 3).take n.toNat

end Sys2Proof.Machine
end

