-- ==== Sys2Proof/Syntax.lean ====
section
/-! DEFINITION. The instructions: one constructor for each row of spec/opcode_table.json (30_encoding.md R57). -/

namespace Sys2Proof

/-- The eight operations of MBFC-OPS, the reserved command codes, and the three wire frames of the table. Operands are
typed by the widths of the fields they come from (R53, R50, R51, D23), so that an operand too wide for its field cannot be
written down; a field an operation does not use is no operand (R53). -/
inductive Instr where
  /-- `CRC_CLR`, op 0x01 (R82). -/
  | crcClr
  /-- `CRC_BYTE b`, op 0x02 (R83): `b` is field a. -/
  | crcByte (b : Byte)
  /-- `CRC_GET`, op 0x03 (R84). -/
  | crcGet
  /-- `BUILD_READ dev, reg, count`, op 0x04 (R100): fields a, r, v. -/
  | buildRead (dev : Byte) (reg count : Half)
  /-- `BUILD_WRITE dev, reg, value`, op 0x05 (R101): fields a, r, v. -/
  | buildWrite (dev : Byte) (reg value : Half)
  /-- `RX_BYTE b`, op 0x06 (R120): `b` is field a. -/
  | rxByte (b : Byte)
  /-- `RX_RESET`, op 0x07 (R134). -/
  | rxReset
  /-- `SET_ADDR addr`, op 0x08 (R135): field a. -/
  | setAddr (addr : Byte)
  /-- Row `RESERVED`: a command word whose op selects no operation, 0x00 or 0x09 to 0xFF (R59). -/
  | reserved (op : Byte)
  /-- Row `READ_REQ`: the outbound read-request frame (R50). Its trailer is no operand: the block computes it
  from bytes 0 to 5 (R55). -/
  | readReq (address : Byte) (reg count : Half)
  /-- Row `WRITE_REQ`: the outbound write-request frame (R50). Its trailer is no operand: the block computes
  it from bytes 0 to 5 (R55). -/
  | writeReq (address : Byte) (reg value : Half)
  /-- Row `READ_RSP`: the inbound read-response frame (R51). The trailer is a field: the device sent it, and the block
  checks it (R127). -/
  | readRsp (address : Byte) (payload : List Byte) (crc : Half)
  deriving DecidableEq, Repr

end Sys2Proof
end

