-- ==== Sys2Proof/WellFormed.lean ====
section
/-! DEFINITION. Which terms of Instr stand for words of the table (30_encoding.md R51, R57, R59). -/

namespace Sys2Proof

/-- An op code that selects no operation: 0x00, 0x09 to 0xFF (R57, R59). -/
def reservedOp (op : Byte) : Bool := op == 0 || decide (9 ≤ op.toNat)

/-- A payload that a response header can announce (R51): a number of bytes that one byte can hold, and an even one (bit 0 of
payloadLen is 0) while `oddReject`, the parameter ODD_LEN_REJECT; without it the last bit of the length is free (D10). -/
def payloadFits (oddReject : Bool) (payload : List Byte) : Bool :=
  decide (payload.length ≤ 255) && !(oddReject && payload.length % 2 == 1)

/-- The checks of an instruction beyond its operands' widths. Only two rows need one: RESERVED and READ_RSP. -/
def WellFormed (i : Instr) : Bool :=
  match i with
  | .crcClr => true
  | .crcByte _ => true
  | .crcGet => true
  | .buildRead _ _ _ => true
  | .buildWrite _ _ _ => true
  | .rxByte _ => true
  | .rxReset => true
  | .setAddr _ => true
  | .reserved op => reservedOp op
  | .readReq _ _ _ => true
  | .writeReq _ _ _ => true
  | .readRsp _ payload _ => payloadFits Config.oddLenReject payload

end Sys2Proof
end

