-- ==== Sys2Proof/Decode.lean ====
section
/-! DEFINITION. What the host presents to the block, its decoding (total, rejecting by name), and the encoder
(30_encoding.md R50 to R59, R62). -/

namespace Sys2Proof

open Machine (join buildFrame responseFrame)

/-- One thing presented to the block: a command word at the CMD port (R53), or the bytes of one wire frame, first byte on
the wire first, in the direction its table row names: a request goes out on TX (R50), a response comes in (R51). -/
inductive Packet where
  /-- A 48-bit command word (R53). -/
  | command (w : CmdWord)
  /-- The bytes of a frame of format RQ, outbound on TX (R50; log entry 3). -/
  | outbound (bytes : List Byte)
  /-- The bytes of a frame of format RS, inbound (R51; log entry 4). -/
  | inbound (bytes : List Byte)
  deriving DecidableEq, Repr

/-- Why the bytes of a wire packet are no frame of the table. Such a packet does not stop the machine: its bytes have the
effect R58 gives them (Sys2Proof.Machine.State.takeNoise; log entry 5). -/
inductive DecodeError where
  /-- The number of bytes is not 8 (format RQ), or not payloadLen + 5 (format RS). -/
  | length
  /-- Byte 1 is no function code the format admits (R50, R51). -/
  | function
  /-- payloadLen is odd while ODD_LEN_REJECT holds: bit 0 of byte 2 of a response is 0 (R51, D10). -/
  | oddLength
  deriving DecidableEq, Repr

/-- Field `op`, bits 47:40 of the command word (R53). -/
def fieldOp (w : CmdWord) : Byte := w.extractLsb' 40 8

/-- Field `a`, bits 39:32 (R53). -/
def fieldA (w : CmdWord) : Byte := w.extractLsb' 32 8

/-- Field `r`, bits 31:16 (R53). -/
def fieldR (w : CmdWord) : Half := w.extractLsb' 16 16

/-- Field `v`, bits 15:0 (R53). -/
def fieldV (w : CmdWord) : Half := w.extractLsb' 0 16

/-- The operation a command word selects (R57). Total: a code that selects none is RESERVED (R59). Fields that the
operation does not use are not looked at (R53). -/
def decodeCommand (w : CmdWord) : Instr :=
  let op := fieldOp w
  if op = 0x01 then .crcClr
  else if op = 0x02 then .crcByte (fieldA w)
  else if op = 0x03 then .crcGet
  else if op = 0x04 then .buildRead (fieldA w) (fieldR w) (fieldV w)
  else if op = 0x05 then .buildWrite (fieldA w) (fieldR w) (fieldV w)
  else if op = 0x06 then .rxByte (fieldA w)
  else if op = 0x07 then .rxReset
  else if op = 0x08 then .setAddr (fieldA w)
  else .reserved op

/-- The request a byte sequence is (format RQ: R50, R55): eight bytes, READ_REQ and WRITE_REQ told apart by the function code.
The two trailer bytes select nothing and are no operand: the table's pattern leaves them free, and the block computes the
trailer of every frame it sends (R55; log entry 3). -/
def decodeRequest (bytes : List Byte) : Except DecodeError Instr :=
  match bytes with
  | [a, f, rh, rl, vh, vl, _, _] =>
    if f ≠ Config.funcRead ∧ f ≠ Config.funcWrite then .error .function
    else if f = Config.funcRead then .ok (.readReq a (join rh rl) (join vh vl))
    else .ok (.writeReq a (join rh rl) (join vh vl))
  | _ => .error .length

/-- The response a byte sequence is (format RS: R51, R56): the third byte gives the length. While `oddReject`, the parameter
ODD_LEN_REJECT, bit 0 of that byte must be 0; without it the bit is a free eighth bit of payloadLen (R51, D10).
Any address and any trailer decode, the model's choice (log entry 4): the parser makes the tests of R58 (a), (d). -/
def decodeResponse (oddReject : Bool) (bytes : List Byte) : Except DecodeError Instr :=
  match bytes with
  | a :: f :: n :: rest =>
    if f ≠ Config.funcRead then .error .function
    else if oddReject ∧ n.toNat % 2 = 1 then .error .oddLength
    else match rest.drop n.toNat with
      | [ch, cl] => .ok (.readRsp a (rest.take n.toNat) (join ch cl))
      | _ => .error .length
  | _ => .error .length

/-- The instruction of a packet, or why there is none. Every command word has one. -/
def decode (p : Packet) : Except DecodeError Instr :=
  match p with
  | .command w => .ok (decodeCommand w)
  | .outbound bytes => decodeRequest bytes
  | .inbound bytes => decodeResponse Config.oddLenReject bytes

/-- The 48-bit word of four fields (R53). -/
def commandWord (op a : Byte) (r v : Half) : CmdWord :=
  (op.setWidth 48 <<< 40) ||| (a.setWidth 48 <<< 32) ||| (r.setWidth 48 <<< 16) ||| v.setWidth 48

/-- The packet of an instruction. Unused fields of a command word are zero (R62). -/
def encode (i : Instr) : Packet :=
  match i with
  | .crcClr => .command (commandWord 0x01 0 0 0)
  | .crcByte b => .command (commandWord 0x02 b 0 0)
  | .crcGet => .command (commandWord 0x03 0 0 0)
  | .buildRead dev reg count => .command (commandWord 0x04 dev reg count)
  | .buildWrite dev reg value => .command (commandWord 0x05 dev reg value)
  | .rxByte b => .command (commandWord 0x06 b 0 0)
  | .rxReset => .command (commandWord 0x07 0 0 0)
  | .setAddr addr => .command (commandWord 0x08 addr 0 0)
  | .reserved op => .command (commandWord op 0 0 0)
  | .readReq address reg count => .outbound (buildFrame address Config.funcRead reg count)
  | .writeReq address reg value => .outbound (buildFrame address Config.funcWrite reg value)
  | .readRsp address payload crc => .inbound (responseFrame address payload crc)

/-- The `n` bytes of a number, most significant first: byte 0 of a frame is the highest byte of the table's number. -/
def tableBytes (n w : Nat) : List Byte := (List.range n).map fun k => BitVec.ofNat 8 (w >>> (8 * (n - 1 - k)))

/-- The packet whose bits the table's number gives, by the width of its row: 48 bits are a command word (one word, bit 0 its
least significant), 64 bits are a request, and otherwise it is a response; a response of which the table numbers only the
three header bytes has zeros behind them, up to the length its third byte announces (R51). -/
def tablePacket (nbits w : Nat) : Packet :=
  if nbits = 48 then .command (BitVec.ofNat 48 w)
  else if nbits = 64 then .outbound (tableBytes 8 w)
  else
    match tableBytes (nbits / 8) w with
    | [b0, b1, b2] => .inbound ([b0, b1, b2] ++ List.replicate (b2.toNat + 2) 0)
    | bytes => .inbound bytes

/-- The instruction the decoder reads from the bits of a table row. -/
def decodeTableWord (nbits w : Nat) : Option Instr := (decode (tablePacket nbits w)).toOption

end Sys2Proof
end

