-- ==== Sys2Proof/Machine/State.lean ====
section
/-! DEFINITION. The state of the block (10_state.md), its events (30_encoding.md R54), and the reasons a step can stop. -/

namespace Sys2Proof.Machine

open Sys2Proof

/-- The four causes of a DROP event (R54, R170, causes 1 to 4). -/
inductive DropCause where
  /-- Cause 1, `ADDR_MISMATCH` (R171). -/
  | addrMismatch
  /-- Cause 2, `FUNC_MISMATCH` (R172). -/
  | funcMismatch
  /-- Cause 3, `ODD_LEN` (R173). -/
  | oddLen
  /-- Cause 4, `CRC_MISMATCH` (R174). -/
  | crcMismatch
  deriving DecidableEq, Repr

/-- The five records of the EVT port (R54). -/
inductive Event where
  /-- `CRCVAL(c)`, by CRC_GET (R84). -/
  | crcVal (c : Half)
  /-- `FRAME(key, payload)`, by the match of RX_BYTE (R128). -/
  | frame (key : Option Half) (payload : List Byte)
  /-- `DROP(cause, b)`: `b` is the byte removed from the head (R123 to R125, R129). -/
  | drop (cause : DropCause) (b : Byte)
  /-- `OVERFLOW(n)`: the buffer length at the clear (R130). -/
  | overflow (n : Nat)
  /-- `ILLEGAL_OP(op)` (R59). -/
  | illegalOp (op : Byte)
  deriving DecidableEq, Repr

/-- The conditions the block detects (R170), with the value each records. -/
inductive Condition where
  /-- Causes 1 to 4: the head byte `b` fails a test. -/
  | mismatch (cause : DropCause) (b : Byte)
  /-- Cause 5: the buffer is `n` bytes long after the scan. -/
  | overflow (n : Nat)
  /-- Cause 6: a reserved command code. -/
  | illegalOp (op : Byte)
  deriving DecidableEq, Repr

/-- The machine stops with a fault: never. The spec gives the block no condition that stops it (R131, R170, R177), so the
type has no constructor and no step can answer a fault. -/
inductive Fault
  deriving DecidableEq, Repr

/-- The machine refuses what is presented: never. Every command word and all inbound bytes have the
effect of R58, R59, R131 and R170, and outbound bytes the one the model chose (log entries 3, 5); the one constructor is the
host's name for an arm of exec without a meaning, and no arm is without one. -/
inductive Refusal where
  /-- Raised by no meaning; an arm of exec that had none would answer it (none is left). Safe. -/
  | notModelled (mnemonic : String)
  deriving DecidableEq, Repr

/-- The whole state (R24), the outputs so far (R18, R41), and what the host has presented and the block has not yet taken. -/
structure State where
  /-- CRCHI, the high accumulator (R10). -/
  crchi : Byte
  /-- CRCLO, the low accumulator (R11). -/
  crclo : Byte
  /-- EXPADDR, the expected device address (R13). -/
  expaddr : Byte
  /-- LASTREG, the register address of the most recently built read request (R14). -/
  lastreg : Option Half
  /-- RXBUF, the Receive Buffer, oldest byte first (R17, R30). -/
  rxbuf : List Byte
  /-- TX: every byte emitted since reset, first byte first (R18; log entry 1). -/
  tx : List Byte
  /-- EVT: every event emitted since reset, first event first (R18; log entry 1). -/
  evt : List Event
  /-- CMD: what the host has presented and the block has not taken, next first (R18, R19; log entry 1). -/
  cmd : List Packet
  deriving DecidableEq, Repr

/-- The state after reset (R24, R201): every value is the spec's; nothing has been presented. -/
def State.reset : State :=
  { crchi := 0xFF, crclo := 0xFF, expaddr := 0x50, lastreg := none, rxbuf := [], tx := [], evt := [], cmd := [] }

end Sys2Proof.Machine
end

