-- ==== Sys2Proof/Machine/Ops.lean ====
section
/-! DEFINITION. The named operations over the state: outputs, registers, the buffer primitives (20_memory.md R31 to R33),
and the entry of a condition (60_exceptions.md R170, R177). -/

namespace Sys2Proof.Machine

open Sys2Proof

/-- `emit EVT(e)` (R8). -/
def State.emit (e : Event) (s : State) : State := { s with evt := s.evt ++ [e] }

/-- `emit TX(bytes)` (R8, R18). -/
def State.send (bytes : List Byte) (s : State) : State := { s with tx := s.tx ++ bytes }

/-- Write both accumulators together (R83). -/
def State.setCrc (acc : Byte × Byte) (s : State) : State := { s with crchi := acc.1, crclo := acc.2 }

/-- `x[EXPADDR] <- addr` (R135). -/
def State.setExpaddr (addr : Byte) (s : State) : State := { s with expaddr := addr }

/-- `x[LASTREG] <- some(reg)` (R103): the only write there is, so it never becomes none again. -/
def State.setLastreg (reg : Half) (s : State) : State := { s with lastreg := some reg }

/-- `RxAppend(b)` (R31). -/
def State.rxAppend (b : Byte) (s : State) : State := { s with rxbuf := s.rxbuf ++ [b] }

/-- `RxDrop(n)` (R32). -/
def State.rxDrop (n : Nat) (s : State) : State := { s with rxbuf := s.rxbuf.drop n }

/-- `RxClear()` (R33). -/
def State.rxClear (s : State) : State := { s with rxbuf := [] }

/-- `MemRead(i, n)` (R8): the `n` bytes from index `i`, defined only inside the buffer. -/
def State.memRead (s : State) (i n : Nat) : Option (List Byte) :=
  if i + n ≤ s.rxbuf.length then some ((s.rxbuf.drop i).take n) else none

/-- The bound on the buffer at rest (R17): the memory's canonical form. The list itself has no second spelling of the same
contents (log entry 2). -/
def Memory.wf (buf : List Byte) : Bool := decide (buf.length ≤ Config.rxCap)

/-- The numeric code of a DROP cause (R54, R170). -/
def DropCause.number : DropCause → Nat
  | .addrMismatch => 1
  | .funcMismatch => 2
  | .oddLen => 3
  | .crcMismatch => 4

/-- The numeric code of an event (R54), used by no rule. -/
def Event.code : Event → Byte
  | .crcVal _ => 0x01
  | .frame _ _ => 0x02
  | .drop _ _ => 0x03
  | .overflow _ => 0x04
  | .illegalOp _ => 0x05

/-- The cause number of a condition (R170). -/
def Condition.cause : Condition → Nat
  | .mismatch c _ => c.number
  | .overflow _ => 5
  | .illegalOp _ => 6

/-- The event of a condition (R170). -/
def Condition.event : Condition → Event
  | .mismatch c b => .drop c b
  | .overflow n => .overflow n
  | .illegalOp op => .illegalOp op

/-- `raise` (R8) and the entry of a condition (R177), the block's counterpart of taking an exception: one event; then
causes 1 to 4 remove the head byte, cause 5 empties the buffer, cause 6 changes nothing. No state is saved, no mode
changes, control goes nowhere; there is no return operation (R179): the operation that raised it carries on. -/
def State.takeCondition (c : Condition) (s : State) : State :=
  let t := s.emit c.event
  match c with
  | .mismatch _ _ => t.rxDrop 1
  | .overflow _ => t.rxClear
  | .illegalOp _ => t

end Sys2Proof.Machine
end

