-- ==== Sys2Proof/Machine/Operands.lean ====
section
/-! DEFINITION. The operand forms that read state: the trailer test on buffer bytes (42_frame_parser.md R127). The operands of
commands and frames are plain fields (Decode.lean, Frames.lean). -/

namespace Sys2Proof.Machine

open Sys2Proof

/-- The test of step 5 (R127) on a candidate of length `len`: the two trailer bytes against crc16 of the bytes before them,
high byte first. -/
def trailerMatches (buf : List Byte) (len : Nat) : Bool :=
  let c := crc16First buf (len - 2)
  buf[len - 2]? == some (hi8 c) && buf[len - 1]? == some (lo8 c)

end Sys2Proof.Machine
end

