-- ==== Sys2Proof/Machine/Flags.lean ====
section
/-! DEFINITION. The block has no status flags (10_state.md R20). What other hardware keeps in flags it decides afresh in
each operation: the tests of the head of the buffer, in their fixed order (60_exceptions.md R176). -/

namespace Sys2Proof.Machine

open Sys2Proof

/-- What the tests of one head position decide (R121). -/
inductive Verdict where
  /-- Steps 1 and 4b: wait for more bytes. -/
  | wait
  /-- Steps 2, 3, 4a and 5: the head byte `b` is to be dropped for `cause`. -/
  | mismatch (cause : DropCause) (b : Byte)
  /-- Step 5: the candidate with header byte `n` matches. -/
  | accept (n : Byte)
  deriving DecidableEq, Repr

/-- Steps 1 to 5 of the scan on one buffer (R121 to R129), in the order of R176: length 5, address, function, parity of
payloadLen (only while `oddReject`, D10), required length, CRC. -/
def headTest (oddReject : Bool) (expected : Byte) (buf : List Byte) : Verdict :=
  match buf with
  | h0 :: h1 :: h2 :: _ =>
    if buf.length < Config.rspOverhead then .wait
    else if h0 ≠ expected then .mismatch .addrMismatch h0
    else if h1 ≠ Config.funcRead then .mismatch .funcMismatch h0
    else if oddReject ∧ h2.toNat % 2 = 1 then .mismatch .oddLen h0
    else if buf.length < responseLength h2 then .wait
    else if trailerMatches buf (responseLength h2) then .accept h2
    else .mismatch .crcMismatch h0
  | _ => .wait

end Sys2Proof.Machine
end

