-- ==== Sys2Proof/Machine/Assembler.lean ====
section
/-! DEFINITION. The frame assembler (41_frame_assembler.md R100 to R103). -/

namespace Sys2Proof.Machine

open Sys2Proof

/-- The read request (R100): the frame on TX, then LASTREG (R103). -/
def State.buildReadRequest (dev : Byte) (reg count : Half) (s : State) : State :=
  (s.send (buildFrame dev Config.funcRead reg count)).setLastreg reg

/-- The write request (R101): the frame on TX and nothing else. -/
def State.buildWriteRequest (dev : Byte) (reg value : Half) (s : State) : State :=
  s.send (buildFrame dev Config.funcWrite reg value)

/-- `BUILD_READ dev, reg, count` (R100). -/
def execBuildRead (dev : Byte) (reg count : Half) (s : State) : Host.Outcome State Fault Refusal :=
  .next (s.buildReadRequest dev reg count)

/-- `BUILD_WRITE dev, reg, value` (R101). -/
def execBuildWrite (dev : Byte) (reg value : Half) (s : State) : Host.Outcome State Fault Refusal :=
  .next (s.buildWriteRequest dev reg value)

end Sys2Proof.Machine
end

