-- ==== Sys2Proof/Machine/CrcEngine.lean ====
section
/-! DEFINITION. The streaming operations of the CRC Engine (40_crc_engine.md R82 to R84). -/

namespace Sys2Proof.Machine

open Sys2Proof

/-- `CRC_CLR` (R82). -/
def execCrcClr (s : State) : Host.Outcome State Fault Refusal :=
  .next (s.setCrc (Config.crcInitHi, Config.crcInitLo))

/-- `CRC_BYTE b` (R83): both registers together from the old values. -/
def execCrcByte (b : Byte) (s : State) : Host.Outcome State Fault Refusal :=
  .next (s.setCrc (crcStep (s.crchi, s.crclo) b))

/-- `CRC_GET` (R84, R12). -/
def execCrcGet (s : State) : Host.Outcome State Fault Refusal :=
  .next (s.emit (.crcVal (join s.crchi s.crclo)))

end Sys2Proof.Machine
end

