-- ==== Sys2Proof/Machine/Parser.lean ====
section
/-! DEFINITION. The frame parser (42_frame_parser.md R120 to R135): the scan, the overflow guard, RX_BYTE, RX_RESET, SET_ADDR. -/

namespace Sys2Proof.Machine

open Sys2Proof

/-- The verdict on the head of the Receive Buffer (R121). -/
def State.verdict (s : State) : Verdict := headTest Config.oddLenReject s.expaddr s.rxbuf

/-- Step 5, match (R128): the event with the key as it is now, then the whole candidate removed. -/
def State.acceptFrame (n : Byte) (s : State) : State :=
  (s.emit (.frame s.lastreg (responsePayload s.rxbuf n))).rxDrop (responseLength n)

/-- One turn of the loop of R121: none where the scan stops, else the state at the next step 1. -/
def State.scanTurn (s : State) : Option State :=
  match s.verdict with
  | .wait => none
  | .mismatch cause b => some (s.takeCondition (.mismatch cause b))
  | .accept n => some (s.acceptFrame n)

/-- At most `fuel` turns of the scan (R121). -/
def State.scanFor (fuel : Nat) (s : State) : State :=
  match fuel with
  | 0 => s
  | k + 1 =>
    match s.scanTurn with
    | none => s
    | some t => t.scanFor k

/-- `Scan()` (R121). Every turn removes at least one byte, so there are at most `len(RXBUF)` of them (R131). -/
def State.scan (s : State) : State := s.scanFor s.rxbuf.length

/-- `Guard()` (R130): step 6, once, after the scan has stopped. -/
def State.guard (s : State) : State :=
  if Config.rxCap < s.rxbuf.length then s.takeCondition (.overflow s.rxbuf.length) else s

/-- The three phases of `RX_BYTE b` (R120). -/
def State.receive (s : State) (b : Byte) : State := (s.rxAppend b).scan.guard

/-- `RX_PUSH` (R137): the bytes one after the other, each a whole RX_BYTE. -/
def State.receiveAll (s : State) (bytes : List Byte) : State := bytes.foldl State.receive s

/-- `RX_BYTE b` (R120). -/
def execRxByte (b : Byte) (s : State) : Host.Outcome State Fault Refusal := .next (s.receive b)

/-- `RX_RESET` (R134). -/
def execRxReset (s : State) : Host.Outcome State Fault Refusal := .next s.rxClear

/-- `SET_ADDR addr` (R135): no rescan, no clear. -/
def execSetAddr (addr : Byte) (s : State) : Host.Outcome State Fault Refusal := .next (s.setExpaddr addr)

end Sys2Proof.Machine
end

