-- ==== Sys2Proof/Machine/Reserved.lean ====
section
/-! DEFINITION. Reserved command codes (30_encoding.md R59, 60_exceptions.md R185). -/

namespace Sys2Proof.Machine

open Sys2Proof

/-- A reserved `op`: the ILLEGAL_OP event and nothing else (R59, R185). -/
def execReserved (op : Byte) (s : State) : Host.Outcome State Fault Refusal :=
  .next (s.takeCondition (.illegalOp op))

end Sys2Proof.Machine
end

