-- ==== Sys2Proof/Machine/Wire.lean ====
section
/-! DEFINITION. The three wire rows of the table (30_encoding.md R50, R51, R57), each the block's own handling of that frame
at the port the row names (log entries 3, 4). -/

namespace Sys2Proof.Machine

open Sys2Proof

/-- `READ_REQ`, "outbound on TX, produced by BUILD_READ": the block produces it as BUILD_READ does (R50, R100, R103). -/
def execReadReq (address : Byte) (reg count : Half) (s : State) : Host.Outcome State Fault Refusal :=
  .next (s.buildReadRequest address reg count)

/-- `WRITE_REQ`, "outbound on TX, produced by BUILD_WRITE" (R50, R101). -/
def execWriteReq (address : Byte) (reg value : Half) (s : State) : Host.Outcome State Fault Refusal :=
  .next (s.buildWriteRequest address reg value)

/-- `READ_RSP`, "inbound, recognised by RX_BYTE": its bytes are received in order, each a whole RX_BYTE (R51, R120, R137).
Whether it is accepted is the parser's decision: address, trailer and buffer are whatever they are. -/
def execReadRsp (address : Byte) (payload : List Byte) (crc : Half) (s : State) : Host.Outcome State Fault Refusal :=
  .next (s.receiveAll (responseFrame address payload crc))

/-- What a wire packet does that is no frame of its direction's rows (log entry 5). Inbound bytes enter RXBUF like any others
and are noise to the parser, "never a fault or a stop" (R58, R137, R210). Outbound bytes that the block did not make do
nothing: it "never parses what it sends" (R57). Every command word decodes (R59), so that case does not arise. -/
def State.takeNoise (p : Packet) (s : State) : State :=
  match p with
  | .command _ => s
  | .outbound _ => s
  | .inbound bytes => s.receiveAll bytes

end Sys2Proof.Machine
end

