-- ==== Sys2Proof/Machine/Dispatch.lean ====
section
/-! DEFINITION. One arm for each instruction. -/

namespace Sys2Proof.Machine

open Sys2Proof

/-- The effect of one instruction (30_encoding.md R57). -/
def exec (i : Instr) (s : State) : Host.Outcome State Fault Refusal :=
  match i with
  | .crcClr => Sys2Proof.Machine.execCrcClr s
  | .crcByte b => Sys2Proof.Machine.execCrcByte b s
  | .crcGet => Sys2Proof.Machine.execCrcGet s
  | .buildRead dev reg count => Sys2Proof.Machine.execBuildRead dev reg count s
  | .buildWrite dev reg value => Sys2Proof.Machine.execBuildWrite dev reg value s
  | .rxByte b => Sys2Proof.Machine.execRxByte b s
  | .rxReset => Sys2Proof.Machine.execRxReset s
  | .setAddr addr => Sys2Proof.Machine.execSetAddr addr s
  | .reserved op => Sys2Proof.Machine.execReserved op s
  | .readReq address reg count => Sys2Proof.Machine.execReadReq address reg count s
  | .writeReq address reg value => Sys2Proof.Machine.execWriteReq address reg value s
  | .readRsp address payload crc => Sys2Proof.Machine.execReadRsp address payload crc s

end Sys2Proof.Machine
end

