-- ==== Sys2Proof/Machine/Step.lean ====
section
/-! DEFINITION. One step: take what is presented at CMD and run it (10_state.md R19, 20_memory.md R41). -/

namespace Sys2Proof.Machine

open Sys2Proof

/-- One step (R19): the operation at the head of CMD, completely. With nothing presented the block holds its state (R184).
A wire packet that is no frame of the table has the effect R58 gives its bytes (log entry 5). No step stops: by R58, R131
and R170 for command words and inbound bytes, by the model's choice for outbound bytes (log entries 3, 5). -/
def step (s : State) : Host.Outcome State Fault Refusal :=
  match s.cmd with
  | [] => .next s
  | p :: rest =>
    match decode p with
    | .ok i => exec i { s with cmd := rest }
    | .error _ => .next (State.takeNoise p { s with cmd := rest })

/-- `s` with the packet of a table row presented next at CMD. -/
def State.withFetchWord (s : State) (nbits w : Nat) : State := { s with cmd := tablePacket nbits w :: s.cmd }

end Sys2Proof.Machine
end

