-- ==== Sys2Proof/Machine/Walk.lean ====
section
/-! DEFINITION. The boundary consumer of FRAME events (43_register_walk.md R150 to R158): pure functions of one event, exact
integers and rationals. It is no operation of the block and touches no state. -/

namespace Sys2Proof.Machine

open Sys2Proof

/-- The seven named quantities of the Register Map (R154). -/
inductive Quantity where
  /-- g -/
  | acceleration
  /-- degrees per second -/
  | angularVelocity
  /-- mm/s -/
  | vibrationVelocity
  /-- degrees -/
  | vibrationAngle
  /-- degrees Celsius -/
  | temperature
  /-- micrometres -/
  | vibrationDisplacement
  /-- Hz -/
  | vibrationFrequency
  deriving DecidableEq, Repr

/-- The axes of a range of three addresses, the lowest address first (R154, D20). -/
inductive Axis where
  /-- The lowest address of the range. -/
  | x
  /-- The middle address of the range. -/
  | y
  /-- The highest address of the range. -/
  | z
  deriving DecidableEq, Repr

/-- A channel (R155, D20): a quantity with its axis, temperature, or a raw register by its number. -/
inductive Channel where
  /-- A quantity measured along an axis. -/
  | along (q : Quantity) (axis : Axis)
  /-- A quantity of one address: temperature. -/
  | single (q : Quantity)
  /-- A raw register (R154, the row "otherwise"). -/
  | raw (addr : Nat)
  deriving DecidableEq, Repr

/-- The three keys the document gives (R155); it names no other. -/
def Channel.key : Channel → Option String
  | .along .acceleration .x => some "accel_x"
  | .along .vibrationVelocity .z => some "vib_speed_z"
  | .single .temperature => some "temperature"
  | _ => none

/-- One row of the Register Map: an inclusive address range, its quantity, its exact multiplier (R154). -/
structure MapRow where
  /-- First address. -/
  first : Nat
  /-- Last address, inclusive. -/
  last : Nat
  /-- What the range holds. -/
  quantity : Quantity
  /-- `m`, with physical value = signed value × m. -/
  scale : Rat
  deriving DecidableEq, Repr

/-- The named rows of the Register Map (R154). -/
def registerMap : List MapRow :=
  [⟨0x34, 0x36, .acceleration, 1 / 2048⟩,
   ⟨0x37, 0x39, .angularVelocity, 125 / 2048⟩,
   ⟨0x3A, 0x3C, .vibrationVelocity, Config.vibVelocityScale⟩,
   ⟨0x3D, 0x3F, .vibrationAngle, 45 / 8192⟩,
   ⟨0x40, 0x40, .temperature, 1 / 100⟩,
   ⟨0x41, 0x43, .vibrationDisplacement, 125 / 4096⟩,
   ⟨0x44, 0x46, .vibrationFrequency, 125 / 4096⟩]

/-- The channel of an address inside a row. -/
def MapRow.channel (row : MapRow) (addr : Nat) : Channel :=
  if row.first = row.last then .single row.quantity
  else if addr = row.first then .along row.quantity .x
  else if addr = row.first + 1 then .along row.quantity .y
  else .along row.quantity .z

/-- `lookup(addr)` (R154, R156): the row that holds the address, else a raw register with multiplier 1. -/
def lookupRegister (addr : Nat) : Channel × Rat :=
  match registerMap.find? (fun row => decide (row.first ≤ addr ∧ addr ≤ row.last)) with
  | some row => (row.channel addr, row.scale)
  | none => (.raw addr, 1)

/-- The sign rule (R153), as the document insists: 65535 is subtracted above 32768 (U1). -/
def signedRaw (raw : Half) : Int :=
  if Config.signThreshold < raw.toNat then (raw.toNat : Int) - Config.signSubtrahend else raw.toNat

/-- The 16-bit word of a payload pair (R151, D11). -/
def pairWord (highFirst : Bool) (b0 b1 : Byte) : Half := if highFirst then join b0 b1 else join b1 b0

/-- The words of a payload (R151); a last, unpaired byte is ignored. -/
def payloadWords : List Byte → List Half
  | b0 :: b1 :: rest => pairWord Config.pairHighFirst b0 b1 :: payloadWords rest
  | _ => []

/-- The deliveries of one word (R156): its channel and its exact value. -/
def deliver (addr : Nat) (raw : Half) : Channel × Rat :=
  ((lookupRegister addr).1, (signedRaw raw : Rat) * (lookupRegister addr).2)

/-- The walk from an address: the address is a natural number and never wraps (R152, D14). -/
def walkWords (addr : Nat) : List Half → List (Channel × Rat)
  | [] => []
  | raw :: rest => deliver addr raw :: walkWords (addr + 1) rest

/-- Why a frame is not walked. -/
inductive WalkError where
  /-- The key is none: no register address is known (R152, R186, D12). -/
  | noKey
  deriving DecidableEq, Repr

/-- The walk of `FRAME(key, payload)` (R152, R156). -/
def walk (key : Option Half) (payload : List Byte) : Except WalkError (List (Channel × Rat)) :=
  match key with
  | none => .error .noKey
  | some r => .ok (walkWords r.toNat (payloadWords payload))

end Sys2Proof.Machine
end

