-- ==== Sys2Proof/Machine/Pseudo.lean ====
section
/-! DEFINITION. The pseudo-operations (30_encoding.md R63): fixed sequences of operations that the HOST expands. -/

namespace Sys2Proof.Machine

open Sys2Proof

/-- Operations one after the other, in the host's order, stopping at the first that does not answer a next state (R41). -/
def runOps (ops : List Instr) (s : State) : Host.Outcome State Fault Refusal :=
  match ops with
  | [] => .next s
  | i :: rest =>
    match exec i s with
    | .next t => runOps rest t
    | .fault r => .fault r
    | .refused r => .refused r

/-- `CRC16 [b0, ...]` (R63, R86). -/
def crc16Ops (bytes : List Byte) : List Instr := .crcClr :: bytes.map Instr.crcByte ++ [.crcGet]

/-- `RX_PUSH [b0, ...]` (R63, R137). -/
def rxPushOps (bytes : List Byte) : List Instr := bytes.map Instr.rxByte

/-- `READ_ALL` (R63, R104), expanded where EXPADDR holds `expaddr`. -/
def readAllOps (expaddr : Byte) : List Instr := [.buildRead expaddr Config.readAllReg Config.readAllCount]

/-- `WRITE_SEQ reg, value` (R63, R105), expanded where EXPADDR holds `expaddr`. The two waits of 100 ms are the host's and no
operation of the block. -/
def writeSeqOps (expaddr : Byte) (reg value : Half) : List Instr :=
  [.buildWrite expaddr Config.unlockReg Config.unlockVal,
   .buildWrite expaddr reg value,
   .buildWrite expaddr Config.saveReg Config.saveVal]

end Sys2Proof.Machine
end

