-- ==== Sys2Proof/Safety.lean ====
section
/-! DEFINITION. What claims about runs speak of: the buffer at rest (42_frame_parser.md R132), the events the rules admit
(30_encoding.md R54), the machine invariant, and the bytes an event accounts for (60_exceptions.md R184). -/

namespace Sys2Proof.Machine

open Sys2Proof

/-- The buffer at rest (R132): at most 256 bytes, and either fewer than 5 or an accepted header whose frame is not
complete. -/
def AtRest (expected : Byte) (buf : List Byte) : Prop :=
  buf.length ≤ 256 ∧
    (buf.length < 5 ∨
      ∃ n : Byte, buf[0]? = some expected ∧ buf[1]? = some 0x03 ∧ buf[2]? = some n ∧ n.toNat % 2 = 0 ∧
        buf.length < n.toNat + 5)

/-- The values an event may carry (R54): a FRAME payload of even length 0 to 252, an OVERFLOW of exactly 257, an ILLEGAL_OP
of a reserved code. -/
def LegalEvent : Event → Prop
  | .crcVal _ => True
  | .frame _ payload => payload.length % 2 = 0 ∧ payload.length ≤ 252
  | .drop _ _ => True
  | .overflow n => n = 257
  | .illegalOp op => op = 0 ∨ 9 ≤ op.toNat

/-- The machine invariant: RXBUF within its bound at rest (R17), every event emitted so far one that R54 admits, and TX a
whole number of eight-byte frames (R18). -/
def Inv (s : State) : Prop := s.rxbuf.length ≤ 256 ∧ (∀ e ∈ s.evt, LegalEvent e) ∧ s.tx.length % 8 = 0

/-- The bytes of the inbound stream that an event of RX_BYTE removed from the head of the buffer, where EXPADDR holds
`expected`: the one byte of a DROP, the whole frame of a FRAME. -/
def eventBytes (expected : Byte) : Event → List Byte
  | .drop _ b => [b]
  | .frame _ payload =>
    let body := [expected, 0x03, BitVec.ofNat 8 payload.length] ++ payload
    body ++ [hi8 (crc16 body), lo8 (crc16 body)]
  | _ => []

/-- The events that `t` has emitted since `s`. -/
def newEvents (s t : State) : List Event := t.evt.drop s.evt.length

/-- Every command word whose op is `op` is decoded to the instruction `f` makes of its fields a, r, v (R53, R57), whatever
the fields that `f` does not use hold. -/
def Selects (op : Byte) (f : Byte → Half → Half → Instr) : Prop :=
  ∀ w : CmdWord, w.extractLsb' 40 8 = op →
    decode (.command w) = .ok (f (w.extractLsb' 32 8) (w.extractLsb' 16 16) (w.extractLsb' 0 16))

/-- A FRAME event. -/
def Event.isFrame : Event → Bool
  | .frame _ _ => true
  | _ => false

/-- A DROP event. -/
def Event.isDrop : Event → Bool
  | .drop _ _ => true
  | _ => false

/-- An OVERFLOW event. -/
def Event.isOverflow : Event → Bool
  | .overflow _ => true
  | _ => false

end Sys2Proof.Machine
end

