-- ==== Sys2Proof/Certificates/Slice0/Obligations.lean ====
section
/-! DEFINITION. The statements for the provers. -/

open Sys2Proof Sys2Proof.Machine

/-! ### Reset and the step -/

/-- R201: what reset leaves. -/
def Obligations.ResetLeavesSpecState : Prop :=
  State.reset.crchi = 0xFF ∧ State.reset.crclo = 0xFF ∧ State.reset.expaddr = 0x50 ∧ State.reset.lastreg = none ∧
    State.reset.rxbuf = [] ∧ State.reset.tx = [] ∧ State.reset.evt = []

/-- 10_state.md R19: a step takes the packet at the head of CMD and runs the instruction it decodes to. -/
def Obligations.StepRunsDecodedInstruction : Prop :=
  ∀ (s : State) (p : Packet) (rest : List Packet) (i : Instr),
    s.cmd = p :: rest → decode p = .ok i → WellFormed i = true → step s = exec i { s with cmd := rest }

/-- R19, R184: with nothing presented the block holds its state (the model's form of it: log entry 1). -/
def Obligations.IdleStepHoldsState : Prop := ∀ s : State, s.cmd = [] → step s = .next s

/-- R58, R137: inbound bytes are received one after the other, each a whole RX_BYTE, whether or not they are a frame of the
table; no byte pattern stops the machine. That the bytes come in one packet and one step is the model's (log entries 4, 5). -/
def Obligations.StepReceivesInboundBytes : Prop :=
  ∀ (s : State) (bytes : List Byte) (rest : List Packet), s.cmd = .inbound bytes :: rest →
    ∃ t, step s = .next t ∧ runOps (rxPushOps bytes) { s with cmd := rest } = .next t

/-- Nothing presented stops the block. From every state, whatever packet is presented, the step completes and has taken exactly
that packet. For command words and for inbound bytes the spec says so (R58, R59, R131, R170). For OUTBOUND bytes it is the
model's choice: the spec gives them no effect, and the model presents them at all (log entry 3) and lets those that are no
request do nothing (log entry 5). CMD as a list of packets, inbound bytes as one packet among them, is the model's too (log
entries 1, 4, 5). -/
def Obligations.EveryPacketCompletes : Prop :=
  ∀ (s : State) (p : Packet) (rest : List Packet), s.cmd = p :: rest → ∃ t, step s = .next t ∧ t.cmd = rest

/-! ### Encodings -/

/-- Decoding an encoded well-formed instruction gives it back, for all twelve rows. -/
def Obligations.DecodeEncodeAgree : Prop := ∀ i : Instr, WellFormed i = true → decode (encode i) = .ok i

/-- What the decoder yields is well-formed, and every command word has an instruction (D17: a total decoder). -/
def Obligations.DecodeYieldsWellFormed : Prop :=
  (∀ p i, decode p = .ok i → WellFormed i = true) ∧ ∀ w, ∃ i, decode (.command w) = .ok i

/-- Encoding a decoded wire frame gives its bytes back: each frame of the table has one meaning and no byte is dropped. The
trailer of a request is no operand (log entry 3): the encoding carries the CRC of the six bytes before it, so that a request
with the trailer R50 gives it comes back whole. -/
def Obligations.FrameEncodeDecodeAgree : Prop :=
  (∀ (bytes : List Byte) (i : Instr), decode (.outbound bytes) = .ok i →
    bytes.length = 8 ∧
      encode i = .outbound (bytes.take 6 ++ [(crc16 (bytes.take 6)).extractLsb' 8 8, (crc16 (bytes.take 6)).extractLsb' 0 8])) ∧
    ∀ (bytes : List Byte) (i : Instr), decode (.inbound bytes) = .ok i → encode i = .inbound bytes

/-- Words and frames written out from the spec decode to what they stand for (vectors A1, A12, X2, F2). -/
def Obligations.SpecWordsDecode : Prop :=
  decodeTableWord 48 0x045000340013 = some (.buildRead 0x50 0x0034 19) ∧
    decodeTableWord 48 0x0550001A0051 = some (.buildWrite 0x50 0x001A 0x0051) ∧
    decodeTableWord 48 0x09AABBCCDDEE = some (.reserved 0x09) ∧
    decodeTableWord 64 0x5003003400134848 = some (.readReq 0x50 0x0034 19) ∧
    decodeTableWord 64 0x5006001A00516470 = some (.writeReq 0x50 0x001A 0x0051) ∧
    decode (.inbound [0x50, 0x03, 0x02, 0x40, 0x00, 0x74, 0x48]) = .ok (.readRsp 0x50 [0x40, 0x00] 0x7448)

/-! ### CRC Engine -/

/-- R82. -/
def Obligations.CrcClrSetsBothAccumulators : Prop :=
  (∀ s : State, exec .crcClr s = .next { s with crchi := 0xFF, crclo := 0xFF }) ∧ Selects 0x01 (fun _ _ _ => .crcClr)

/-- R83, R85: both accumulators from the old values. -/
def Obligations.CrcByteStepsAccumulators : Prop :=
  (∀ (b : Byte) (s : State), exec (.crcByte b) s =
    .next { s with
      crchi := s.crclo ^^^ tabHi (s.crchi ^^^ b)
      crclo := tabLo (s.crchi ^^^ b) }) ∧
    Selects 0x02 (fun a _ _ => .crcByte a)

/-- R84. -/
def Obligations.CrcGetEmitsValue : Prop :=
  (∀ s : State, exec .crcGet s = .next { s with
    evt := s.evt ++ [.crcVal ((s.crchi.setWidth 16 <<< 8) ||| s.crclo.setWidth 16)] }) ∧
    Selects 0x03 (fun _ _ _ => .crcGet)

/-- R81: the tables are those of the defining rule, at every index. -/
def Obligations.TablesFollowDefiningRule : Prop :=
  ∀ i : Byte,
    let T : Half := Nat.repeat (fun c : Half => if c.getLsbD 0 then (c >>> 1) ^^^ 0xA001 else c >>> 1) 8 (i.setWidth 16)
    tabHi i = T.extractLsb' 0 8 ∧ tabLo i = T.extractLsb' 8 8

/-- R86: crc16 starts from 0xFF/0xFF, takes one crcStep (R85) for each byte in order, and puts the high accumulator in bits
15 to 8; with a length, only the first `n` bytes take part. -/
def Obligations.Crc16FollowsContract : Prop :=
  crc16 [] = 0xFFFF ∧
    (∀ (s : List Byte) (b : Byte),
      hi8 (crc16 (s ++ [b])) = lo8 (crc16 s) ^^^ tabHi (hi8 (crc16 s) ^^^ b) ∧
        lo8 (crc16 (s ++ [b])) = tabLo (hi8 (crc16 s) ^^^ b)) ∧
    (∀ s : List Byte, crc16 s = ((hi8 (crc16 s)).setWidth 16 <<< 8) ||| (lo8 (crc16 s)).setWidth 16) ∧
    ∀ (s t : List Byte), crc16First (s ++ t) s.length = crc16 s

/-- R63, R86: the pseudo-operation CRC16 emits CRCVAL(crc16) of its bytes, leaves its two bytes in the accumulators, and
changes nothing else. -/
def Obligations.Crc16OpsEmitCheckValue : Prop :=
  ∀ (bytes : List Byte) (s : State), runOps (crc16Ops bytes) s =
    .next { s with
      crchi := (crc16 bytes).extractLsb' 8 8
      crclo := (crc16 bytes).extractLsb' 0 8
      evt := s.evt ++ [.crcVal (crc16 bytes)] }

/-- R87: crc16 is the canonical bitwise CRC-16/MODBUS register of R88 with its two bytes exchanged, for every sequence of
every length (R90). -/
def Obligations.Crc16IsCanonicalSwapped : Prop :=
  ∀ s : List Byte, crc16 s = ((lo8 (canon s)).setWidth 16 <<< 8) ||| (hi8 (canon s)).setWidth 16

/-- R89 (d), R127: a sequence with two trailer bytes has CRC zero exactly if the two bytes are its CRC, high byte first. -/
def Obligations.ResidueZeroIffTrailerMatches : Prop :=
  ∀ (s : List Byte) (b1 b2 : Byte), crc16 (s ++ [b1, b2]) = 0 ↔ b1 = hi8 (crc16 s) ∧ b2 = lo8 (crc16 s)

/-- R89 (g): sequences that differ in one byte only have different CRCs; so of two frames that differ in one byte, in
particular in one bit, in the body or in the trailer, at most one passes the test of R127. -/
def Obligations.OneByteErrorsChangeCrc : Prop :=
  ∀ (before after : List Byte) (b b' : Byte), b ≠ b' → crc16 (before ++ b :: after) ≠ crc16 (before ++ b' :: after)

/-! ### Frame assembler -/

/-- R100, R102, R103. -/
def Obligations.BuildReadEmitsFrame : Prop :=
  (∀ (dev : Byte) (reg count : Half) (s : State),
    let body : List Byte := [dev, 0x03, reg.extractLsb' 8 8, reg.extractLsb' 0 8, count.extractLsb' 8 8, count.extractLsb' 0 8]
    exec (.buildRead dev reg count) s = .next { s with
      tx := s.tx ++ (body ++ [(crc16 body).extractLsb' 8 8, (crc16 body).extractLsb' 0 8])
      lastreg := some reg }) ∧
    Selects 0x04 (fun a r v => .buildRead a r v)

/-- R101, R102: no state but TX. -/
def Obligations.BuildWriteEmitsFrame : Prop :=
  (∀ (dev : Byte) (reg value : Half) (s : State),
    let body : List Byte := [dev, 0x06, reg.extractLsb' 8 8, reg.extractLsb' 0 8, value.extractLsb' 8 8, value.extractLsb' 0 8]
    exec (.buildWrite dev reg value) s = .next { s with
      tx := s.tx ++ (body ++ [(crc16 body).extractLsb' 8 8, (crc16 body).extractLsb' 0 8]) }) ∧
    Selects 0x05 (fun a r v => .buildWrite a r v)

/-- R104: READ_ALL is one BUILD_READ of 0x34, 19 to EXPADDR; with EXPADDR at its reset value the frame is
50 03 00 34 00 13 48 48. -/
def Obligations.ReadAllBuildsPollRequest : Prop :=
  (∀ s : State, runOps (readAllOps s.expaddr) s = exec (.buildRead s.expaddr 0x34 19) s) ∧
    ∀ s : State, s.expaddr = 0x50 →
      runOps (readAllOps s.expaddr) s = .next { s with
        tx := s.tx ++ [0x50, 0x03, 0x00, 0x34, 0x00, 0x13, 0x48, 0x48]
        lastreg := some 0x34 }

/-- R105: WRITE_SEQ emits exactly three write requests to EXPADDR (unlock, the write itself, save), 24 bytes, and changes
nothing else, whatever the OPEN parameters are (log entry 7). -/
def Obligations.WriteSeqEmitsThreeFrames : Prop :=
  ∀ (reg value : Half) (s : State),
    let out := buildFrame s.expaddr 0x06 Config.unlockReg Config.unlockVal ++ buildFrame s.expaddr 0x06 reg value ++
      buildFrame s.expaddr 0x06 Config.saveReg Config.saveVal
    runOps (writeSeqOps s.expaddr reg value) s = .next { s with tx := s.tx ++ out } ∧ out.length = 24

/-- R22, R106, R219: BUILD_WRITE, CRC_CLR and CRC_BYTE change places with RX_BYTE, and CRC_BYTE with both builders, with the
same result; BUILD_READ before an RX_BYTE changes no byte of the buffer it leaves. -/
def Obligations.EngineAssemblerParserIndependent : Prop :=
  (∀ (i j : Instr) (s : State),
    ((∃ d r v, i = .buildWrite d r v) ∨ i = .crcClr ∨ (∃ b, i = .crcByte b)) → (∃ b, j = .rxByte b) →
      runOps [i, j] s = runOps [j, i] s) ∧
    (∀ (b : Byte) (j : Instr) (s : State),
      ((∃ d r v, j = .buildRead d r v) ∨ ∃ d r v, j = .buildWrite d r v) →
        runOps [.crcByte b, j] s = runOps [j, .crcByte b] s) ∧
    ∀ (d b : Byte) (r v : Half) (s : State), ∃ t u,
      runOps [.buildRead d r v, .rxByte b] s = .next t ∧ exec (.rxByte b) s = .next u ∧ t.rxbuf = u.rxbuf

/-! ### Frame parser: the loop of R121, branch by branch -/

/-- R120, R130: append, scan, guard. -/
def Obligations.RxByteAppendsScansGuards : Prop :=
  (∀ (b : Byte) (s : State),
    let t := State.scan { s with rxbuf := s.rxbuf ++ [b] }
    exec (.rxByte b) s = .next (if 256 < t.rxbuf.length then
      { t with rxbuf := [], evt := t.evt ++ [.overflow t.rxbuf.length] } else t)) ∧
    Selects 0x06 (fun a _ _ => .rxByte a)

/-- R122: fewer than five bytes: nothing is tested. -/
def Obligations.ScanWaitsBelowFiveBytes : Prop := ∀ s : State, s.rxbuf.length < 5 → s.scan = s

/-- R123 (R171): wrong address: event, head byte removed, step 1 again. -/
def Obligations.ScanDropsAddressMismatch : Prop :=
  ∀ (s : State) (h0 : Byte) (rest : List Byte), s.rxbuf = h0 :: rest → 5 ≤ s.rxbuf.length → h0 ≠ s.expaddr →
    s.scan = State.scan { s with rxbuf := rest, evt := s.evt ++ [.drop .addrMismatch h0] }

/-- R124 (R172): right address, wrong function. The byte recorded and removed is the address byte. -/
def Obligations.ScanDropsFunctionMismatch : Prop :=
  ∀ (s : State) (h1 : Byte) (rest : List Byte), s.rxbuf = s.expaddr :: h1 :: rest → 5 ≤ s.rxbuf.length → h1 ≠ 0x03 →
    s.scan = State.scan { s with rxbuf := h1 :: rest, evt := s.evt ++ [.drop .funcMismatch s.expaddr] }

/-- R125 (R173): right address and function, odd payloadLen, with ODD_LEN_REJECT at its value true (log entry 8); with the
parameter false the head test has no such step, and an odd payloadLen is treated like an even one. -/
def Obligations.ScanDropsOddLength : Prop :=
  (∀ (s : State) (n : Byte) (rest : List Byte), s.rxbuf = s.expaddr :: 0x03 :: n :: rest → 5 ≤ s.rxbuf.length →
    n.toNat % 2 = 1 →
    s.scan = State.scan { s with rxbuf := 0x03 :: n :: rest, evt := s.evt ++ [.drop .oddLen s.expaddr] }) ∧
    ∀ (e n : Byte) (rest : List Byte), 5 ≤ (e :: 0x03 :: n :: rest).length →
      headTest false e (e :: 0x03 :: n :: rest) =
        if (e :: 0x03 :: n :: rest).length < n.toNat + 5 then .wait
        else if trailerMatches (e :: 0x03 :: n :: rest) (n.toNat + 5) then .accept n
        else .mismatch .crcMismatch e

/-- R126: an accepted header and a frame not complete yet: the scan waits and leaves everything in place. -/
def Obligations.ScanWaitsForWholeFrame : Prop :=
  ∀ (s : State) (n : Byte) (rest : List Byte), s.rxbuf = s.expaddr :: 0x03 :: n :: rest → n.toNat % 2 = 0 →
    s.rxbuf.length < n.toNat + 5 → s.scan = s

/-- R127, R128: a candidate whose trailer is crc16 of the bytes before it, high byte first, is delivered under LASTREG as it
is at this moment and removed whole; step 1 again on what is left. -/
def Obligations.ScanDeliversMatch : Prop :=
  ∀ (s : State) (n : Byte) (payload rest : List Byte), n.toNat % 2 = 0 → payload.length = n.toNat →
    let body := [s.expaddr, 0x03, n] ++ payload
    s.rxbuf = body ++ [(crc16 body).extractLsb' 8 8, (crc16 body).extractLsb' 0 8] ++ rest →
      s.scan = State.scan { s with rxbuf := rest, evt := s.evt ++ [.frame s.lastreg payload] }

/-- R127, R129 (R174): a complete candidate whose trailer differs in either byte: only the head byte is removed. -/
def Obligations.ScanDropsCrcMismatch : Prop :=
  ∀ (s : State) (n c1 c2 : Byte) (payload rest : List Byte), n.toNat % 2 = 0 → payload.length = n.toNat →
    let body := [s.expaddr, 0x03, n] ++ payload
    s.rxbuf = body ++ [c1, c2] ++ rest →
    ¬ (c1 = (crc16 body).extractLsb' 8 8 ∧ c2 = (crc16 body).extractLsb' 0 8) →
      s.scan = State.scan { s with
        rxbuf := [0x03, n] ++ payload ++ [c1, c2] ++ rest
        evt := s.evt ++ [.drop .crcMismatch s.expaddr] }

/-! ### Frame parser: whole operations -/

/-- R120: RX_BYTE always completes; it writes RXBUF, appends DROP, FRAME and OVERFLOW events to EVT, and changes nothing
else. -/
def Obligations.RxByteFrame : Prop :=
  ∀ (b : Byte) (s : State), ∃ t es, exec (.rxByte b) s = .next t ∧ t = { s with rxbuf := t.rxbuf, evt := s.evt ++ es } ∧
    ∀ e ∈ es, e.isDrop ∨ e.isFrame ∨ e.isOverflow

/-- R132: after any RX_BYTE, from any state, the buffer is at rest, and scan and guard run on it again change nothing and
emit nothing. -/
def Obligations.RxByteLeavesBufferAtRest : Prop :=
  ∀ (b : Byte) (s : State), ∃ t, exec (.rxByte b) s = .next t ∧ AtRest t.expaddr t.rxbuf ∧ t.scan.guard = t

/-- R184, R128: nothing is lost silently. The bytes that stood in the buffer with the new one behind them are, in order, the
bytes of the events of this operation (a DROP's byte; a FRAME's whole frame, header, payload and trailer of CRC), then the
bytes an OVERFLOW clear discarded, whose number that event reports, then the bytes still in the buffer. -/
def Obligations.RxByteAccountsForEveryByte : Prop :=
  ∀ (b : Byte) (s : State), ∃ t lost, exec (.rxByte b) s = .next t ∧
    s.rxbuf ++ [b] = (newEvents s t).flatMap (eventBytes s.expaddr) ++ lost ++ t.rxbuf ∧
    ((lost = [] ∧ ∀ e ∈ newEvents s t, e.isOverflow = false) ∨
      (t.rxbuf = [] ∧ ∃ es, newEvents s t = es ++ [.overflow lost.length] ∧ ∀ e ∈ es, e.isOverflow = false))

/-- R130, R175, R176: from a buffer within its bound, an OVERFLOW reports 257, is the last event of its operation, leaves the
buffer empty, and comes only from an operation that delivered no frame. -/
def Obligations.OverflowOnlyWithoutFrame : Prop :=
  ∀ (b : Byte) (s : State) (n : Nat), s.rxbuf.length ≤ 256 → ∃ t, exec (.rxByte b) s = .next t ∧
    (.overflow n ∈ newEvents s t →
      n = 257 ∧ t.rxbuf = [] ∧ (newEvents s t).getLast? = some (.overflow 257) ∧ ∀ e ∈ newEvents s t, e.isFrame = false)

/-- R179: one RX_BYTE raises at most 253 DROP events. -/
def Obligations.DropChainAtMost253 : Prop :=
  ∀ (b : Byte) (s : State), s.rxbuf.length ≤ 256 → ∃ t, exec (.rxByte b) s = .next t ∧
    (newEvents s t).countP Event.isDrop ≤ 253

/-- R128, R207: every frame an RX_BYTE delivers carries LASTREG as it stands in that operation. -/
def Obligations.FrameKeyIsLastregAtMatch : Prop :=
  ∀ (b : Byte) (s : State), ∃ t, exec (.rxByte b) s = .next t ∧ t.lastreg = s.lastreg ∧
    ∀ k payload, .frame k payload ∈ newEvents s t → k = s.lastreg

/-- R14, R186: once a read request has been built, LASTREG is never none again and no step delivers a frame without a key. -/
def Obligations.NoKeylessFrameAfterBuildRead : Prop :=
  ∀ (s t : State), s.lastreg ≠ none → step s = .next t →
    t.lastreg ≠ none ∧ ∀ payload, .frame none payload ∉ newEvents s t

/-- R137: a push of two chunks is the pushes of the two chunks one after the other, so that the result does not depend on how
a stream is cut; a push always completes and leaves everything but RXBUF and EVT as it was. -/
def Obligations.PushIndependentOfChunking : Prop :=
  ∀ (x y : List Byte) (s : State), ∃ t u,
    runOps (rxPushOps x) s = .next t ∧ runOps (rxPushOps y) t = .next u ∧ runOps (rxPushOps (x ++ y)) s = .next u ∧
      ∃ es es', t = { s with rxbuf := t.rxbuf, evt := s.evt ++ es } ∧
        u = { s with rxbuf := u.rxbuf, evt := s.evt ++ es ++ es' }

/-- R51, R128, R137, R138 (a), (b): from an empty buffer, every read response from EXPADDR of even length up to 252 with the
right CRC is delivered: exactly one FRAME event under LASTREG, no other event, and the buffer empty again. That the row
READ_RSP runs as one instruction, its bytes received in one step, is the model's choice (log entry 4). -/
def Obligations.ValidResponseIsDelivered : Prop :=
  ∀ (payload : List Byte) (s : State), s.rxbuf = [] → payload.length % 2 = 0 → payload.length ≤ 252 →
    exec (.readRsp s.expaddr payload (crc16 ([s.expaddr, 0x03, BitVec.ofNat 8 payload.length] ++ payload))) s =
      .next { s with evt := s.evt ++ [.frame s.lastreg payload] }

/-- R134. -/
def Obligations.RxResetClearsBuffer : Prop :=
  (∀ s : State, exec .rxReset s = .next { s with rxbuf := [] }) ∧ Selects 0x07 (fun _ _ _ => .rxReset)

/-- R135. -/
def Obligations.SetAddrWritesExpaddr : Prop :=
  (∀ (addr : Byte) (s : State), exec (.setAddr addr) s = .next { s with expaddr := addr }) ∧
    Selects 0x08 (fun a _ _ => .setAddr a)

/-! ### Reserved codes and wire rows -/

/-- R59, R185. -/
def Obligations.ReservedOpRaisesIllegalOp : Prop :=
  ∀ op : Byte, op = 0x00 ∨ 0x09 ≤ op.toNat →
    (∀ s : State, exec (.reserved op) s = .next { s with evt := s.evt ++ [.illegalOp op] }) ∧
      Selects op (fun _ _ _ => .reserved op)

/-- The model's meaning of the rows READ_REQ and WRITE_REQ (log entry 3): the block emits on TX exactly the bytes of the frame,
and a READ_REQ sets LASTREG as the BUILD_READ that produces it does. -/
def Obligations.RequestRowsEmitTheirFrame : Prop :=
  (∀ (a : Byte) (r n : Half) (s : State), ∃ bytes, encode (.readReq a r n) = .outbound bytes ∧
    exec (.readReq a r n) s = .next { s with tx := s.tx ++ bytes, lastreg := some r }) ∧
    ∀ (a : Byte) (r v : Half) (s : State), ∃ bytes, encode (.writeReq a r v) = .outbound bytes ∧
      exec (.writeReq a r v) s = .next { s with tx := s.tx ++ bytes }

/-- The model's meaning of the row READ_RSP (log entry 4), for every payload and trailer: it completes, as RX_PUSH of its
bytes does, and leaves everything but RXBUF and EVT as it was. -/
def Obligations.ResponseRowIsPushOfItsBytes : Prop :=
  ∀ (a : Byte) (payload : List Byte) (crc : Half) (s : State), ∃ t es,
    exec (.readRsp a payload crc) s = .next t ∧
      runOps (rxPushOps ([a, 0x03, BitVec.ofNat 8 payload.length] ++ payload ++ [crc.extractLsb' 8 8, crc.extractLsb' 0 8])) s
        = .next t ∧
      t = { s with rxbuf := t.rxbuf, evt := s.evt ++ es }

/-! ### Rules of the whole machine -/

/-- Every step keeps the invariant: RXBUF at most 256 bytes (R17, R132), every event one that R54 admits, TX whole frames of
eight bytes (R18). -/
def Obligations.StepKeepsInv : Prop := ∀ s t : State, Inv s → step s = .next t → Inv t

/-- The invariant holds after reset. -/
def Obligations.ResetHasInv : Prop := Inv State.reset

/-- R10, R11, R13, R14, R17, R18: which instructions may change each register, the buffer and TX; none changes CMD. Those rules
name CRC_CLR, CRC_BYTE, SET_ADDR, BUILD_READ, BUILD_WRITE, RX_BYTE and RX_RESET. That READ_REQ and WRITE_REQ write as the
builders do (log entry 3) and READ_RSP as RX_BYTE does (log entry 4), and that CMD is a field at all (log entry 1), are the
model's choices. -/
def Obligations.OnlyNamedInstructionsWrite : Prop :=
  ∀ (i : Instr) (s t : State), exec i s = .next t →
    (t.crchi ≠ s.crchi ∨ t.crclo ≠ s.crclo → i = .crcClr ∨ ∃ b, i = .crcByte b) ∧
    (t.expaddr ≠ s.expaddr → ∃ a, i = .setAddr a) ∧
    (t.lastreg ≠ s.lastreg → (∃ d r n, i = .buildRead d r n) ∨ ∃ a r n, i = .readReq a r n) ∧
    (t.rxbuf ≠ s.rxbuf → (∃ b, i = .rxByte b) ∨ i = .rxReset ∨ ∃ a p c, i = .readRsp a p c) ∧
    (t.tx ≠ s.tx → (∃ d r n, i = .buildRead d r n) ∨ (∃ d r v, i = .buildWrite d r v) ∨
      (∃ a r n, i = .readReq a r n) ∨ ∃ a r v, i = .writeReq a r v) ∧
    t.cmd = s.cmd

/-- R18, R41: outputs are appended after all earlier outputs and never taken back; one instruction emits nothing or eight
bytes on TX. -/
def Obligations.OutputsOnlyGrow : Prop :=
  ∀ (i : Instr) (s t : State), exec i s = .next t →
    ∃ bytes es, t.tx = s.tx ++ bytes ∧ (bytes.length = 0 ∨ bytes.length = 8) ∧ t.evt = s.evt ++ es

/-! ### Register walk (boundary) -/

/-- R153: 65535 is subtracted above 32768. -/
def Obligations.SignRuleSubtracts65535 : Prop :=
  (∀ raw : Half, signedRaw raw = if raw.toNat > 32768 then (raw.toNat : Int) - 65535 else (raw.toNat : Int)) ∧
    ∀ raw : Half, -32766 ≤ signedRaw raw ∧ signedRaw raw ≤ 32768

/-- R154: the Register Map, address by address. -/
def Obligations.RegisterMapLookup : Prop :=
  let triple := fun (first : Nat) (q : Quantity) (m : Rat) =>
    lookupRegister first = (.along q .x, m) ∧ lookupRegister (first + 1) = (.along q .y, m) ∧
      lookupRegister (first + 2) = (.along q .z, m)
  triple 0x34 .acceleration (1 / 2048) ∧ triple 0x37 .angularVelocity (125 / 2048) ∧
    triple 0x3A .vibrationVelocity (25 / 8192) ∧ triple 0x3D .vibrationAngle (45 / 8192) ∧
    lookupRegister 0x40 = (.single .temperature, 1 / 100) ∧
    triple 0x41 .vibrationDisplacement (125 / 4096) ∧ triple 0x44 .vibrationFrequency (125 / 4096) ∧
    ∀ addr : Nat, addr < 0x34 ∨ 0x46 < addr → lookupRegister addr = (.raw addr, 1)

/-- R152, R156: the walk delivers one value for each pair of payload bytes, in order: the k-th under the address r + k, not
reduced, with the signed value times the multiplier; without a key it delivers nothing. -/
def Obligations.WalkDeliversEachWord : Prop :=
  (∀ payload : List Byte, walk none payload = .error .noKey) ∧
    ∀ (r : Half) (payload : List Byte), ∃ out, walk (some r) payload = .ok out ∧ out.length = payload.length / 2 ∧
      ∀ (k : Nat) (b0 b1 : Byte), payload[2 * k]? = some b0 → payload[2 * k + 1]? = some b1 →
        out[k]? = some ((lookupRegister (r.toNat + k)).1,
          (signedRaw ((b0.setWidth 16 <<< 8) ||| b1.setWidth 16) : Rat) * (lookupRegister (r.toNat + k)).2)

/-! ### The response format under both length rules -/

/-- The shape of format RS (R51, D10): with ODD_LEN_REJECT at either value, the byte sequences that decode as a response are
exactly those of the shape [address, 03, N, payload, two trailer bytes] with N the payload's length, even where odd lengths are
rejected and free where they are not; and an inbound packet is decoded with the spec's default, true (log entry 8). ANY address
and ANY trailer decode: that is the model's choice (log entry 4). R51 gives the trailer as crc16 and wants the address equal to
EXPADDR, and R58 (a), (d) call other bytes no READ_RSP; the parser, not the decoder, makes these two tests. -/
def Obligations.ResponseFormatFollowsOddLenReject : Prop :=
  (∀ (oddReject : Bool) (bytes : List Byte) (i : Instr), decodeResponse oddReject bytes = .ok i ↔
    ∃ (a : Byte) (payload : List Byte) (crc : Half), i = .readRsp a payload crc ∧ payload.length ≤ 255 ∧
      (oddReject = true → payload.length % 2 = 0) ∧
      bytes = [a, 0x03, BitVec.ofNat 8 payload.length] ++ payload ++ [crc.extractLsb' 8 8, crc.extractLsb' 0 8]) ∧
    ∀ bytes : List Byte, decode (.inbound bytes) = decodeResponse true bytes

/-! ### Outbound bytes that are no request -/

/-- The model's choice (log entry 5): outbound bytes that are no request frame do nothing; the packet is taken and every field
but CMD is as it was. -/
def Obligations.OtherOutboundBytesDoNothing : Prop :=
  ∀ (s : State) (bytes : List Byte) (rest : List Packet), s.cmd = .outbound bytes :: rest →
    (bytes.length ≠ 8 ∨ (bytes[1]? ≠ some 0x03 ∧ bytes[1]? ≠ some 0x06)) → step s = .next { s with cmd := rest }
end

