-- ==== Sys2Proof/Laws/Crc.lean ====
section
/-! SUPPORT. The small lemmas of the byte halves, of crcStep and of crc16. -/

namespace Sys2Proof.Machine

open Sys2Proof

@[simp] theorem hi8_join (h l : Byte) : hi8 (join h l) = h := by
  apply BitVec.eq_of_getLsbD_eq
  intro i hi
  have h16 : 8 + i < 16 := by omega
  simp [hi8, join, hi, h16]

@[simp] theorem lo8_join (h l : Byte) : lo8 (join h l) = l := by
  apply BitVec.eq_of_getLsbD_eq
  intro i hi
  have h16 : i < 16 := by omega
  simp [lo8, join, hi, h16]

@[simp] theorem join_hi8_lo8 (v : Half) : join (hi8 v) (lo8 v) = v := by
  apply BitVec.eq_of_getLsbD_eq
  intro i hi
  by_cases h : i < 8
  · simp [hi8, lo8, join, h, hi]
  · have h8 : 8 + (i - 8) = i := by omega
    have h1 : i - 8 < 8 := by omega
    simp [hi8, lo8, join, h, hi, h8, h1]

/-- `join` is injective in both bytes. -/
theorem join_inj {h l h' l' : Byte} : join h l = join h' l' ↔ h = h' ∧ l = l' := by
  refine ⟨fun e => ⟨?_, ?_⟩, ?_⟩
  · simpa using congrArg hi8 e
  · simpa using congrArg lo8 e
  · rintro ⟨rfl, rfl⟩; rfl

@[simp] theorem crcRun_nil (acc : Byte × Byte) : crcRun acc [] = acc := rfl

@[simp] theorem crcRun_cons (acc : Byte × Byte) (b : Byte) (s : List Byte) :
    crcRun acc (b :: s) = crcRun (crcStep acc b) s := rfl

/-- Streaming (R89 (c)). -/
theorem crcRun_append (acc : Byte × Byte) (s t : List Byte) :
    crcRun acc (s ++ t) = crcRun (crcRun acc s) t := by
  simp [crcRun, List.foldl_append]

theorem hi8_crc16 (s : List Byte) : hi8 (crc16 s) = (crcRun (0xFF, 0xFF) s).1 := by simp [crc16]

theorem lo8_crc16 (s : List Byte) : lo8 (crc16 s) = (crcRun (0xFF, 0xFF) s).2 := by simp [crc16]

/-- Entry 0 of both tables is 0 (R81). -/
theorem tab_zero : tabHi 0 = 0 ∧ tabLo 0 = 0 := by decide

/-- A request frame has eight bytes, whatever its operands (R102). -/
@[simp] theorem buildFrame_length (dev fn : Byte) (reg val : Half) :
    (buildFrame dev fn reg val).length = Config.reqLen := rfl

@[simp] theorem responseFrame_length (address : Byte) (payload : List Byte) (crc : Half) :
    (responseFrame address payload crc).length = payload.length + Config.rspOverhead := by
  simp [responseFrame, Nat.add_assoc]

end Sys2Proof.Machine
end

