-- ==== Sys2Proof/Laws/Decode.lean ====
section
/-! SUPPORT. The small lemmas of the command word and of the frame decoders (30_encoding.md R50 to R53). -/

namespace Sys2Proof

open Machine

section

variable (op a : Byte) (r v : Half)

@[simp] theorem fieldOp_commandWord : fieldOp (commandWord op a r v) = op := by
  apply BitVec.eq_of_getLsbD_eq
  intro i hi
  have e1 : a.getLsbD (40 + i - 32) = false := BitVec.getLsbD_of_ge _ _ (by omega)
  have e2 : r.getLsbD (40 + i - 16) = false := BitVec.getLsbD_of_ge _ _ (by omega)
  have e3 : v.getLsbD (40 + i) = false := BitVec.getLsbD_of_ge _ _ (by omega)
  have h1 : 40 + i < 48 := by omega
  simp [fieldOp, commandWord, hi, e1, e2, e3, h1]

@[simp] theorem fieldA_commandWord : fieldA (commandWord op a r v) = a := by
  apply BitVec.eq_of_getLsbD_eq
  intro i hi
  have e2 : r.getLsbD (32 + i - 16) = false := BitVec.getLsbD_of_ge _ _ (by omega)
  have e3 : v.getLsbD (32 + i) = false := BitVec.getLsbD_of_ge _ _ (by omega)
  have h1 : 32 + i < 48 := by omega
  have h2 : 32 + i < 40 := by omega
  simp [fieldA, commandWord, hi, e2, e3, h1, h2]

@[simp] theorem fieldR_commandWord : fieldR (commandWord op a r v) = r := by
  apply BitVec.eq_of_getLsbD_eq
  intro i hi
  have h1 : 16 + i < 48 := by omega
  have h2 : 16 + i < 40 := by omega
  have h3 : 16 + i < 32 := by omega
  simp [fieldR, commandWord, hi, h1, h2, h3]

@[simp] theorem fieldV_commandWord : fieldV (commandWord op a r v) = v := by
  apply BitVec.eq_of_getLsbD_eq
  intro i hi
  have h1 : i < 48 := by omega
  have h2 : i < 40 := by omega
  have h3 : i < 32 := by omega
  simp [fieldV, commandWord, hi, h1, h2, h3]

end

/-! The two frame decoders, one lemma for what each can yield (R50, R51). -/

/-- A request that decodes is READ_REQ or WRITE_REQ of the fields its eight bytes hold, whatever its trailer
holds (R55). -/
theorem decodeRequest_cases {bytes : List Byte} {i : Instr} (h : decodeRequest bytes = .ok i) :
    ∃ a f rh rl vh vl ch cl, bytes = [a, f, rh, rl, vh, vl, ch, cl] ∧
      ((f = Config.funcRead ∧ i = .readReq a (join rh rl) (join vh vl)) ∨
        (f = Config.funcWrite ∧ i = .writeReq a (join rh rl) (join vh vl))) := by
  unfold decodeRequest at h
  split at h
  · rename_i a f rh rl vh vl ch cl
    split_ifs at h with h1 h3
    · cases h
      exact ⟨a, f, rh, rl, vh, vl, ch, cl, rfl, .inl ⟨h3, rfl⟩⟩
    · cases h
      refine ⟨a, f, rh, rl, vh, vl, ch, cl, rfl, .inr ⟨?_, rfl⟩⟩
      by_contra h4
      exact h1 ⟨h3, h4⟩
  · cases h

/-- A response that decodes is READ_RSP of the payload its third byte measures, of even length where odd ones are rejected. -/
theorem decodeResponse_cases {o : Bool} {bytes : List Byte} {i : Instr} (h : decodeResponse o bytes = .ok i) :
    ∃ a n rest ch cl, bytes = a :: Config.funcRead :: n :: rest ∧ rest.drop n.toNat = [ch, cl] ∧
      (o = true → n.toNat % 2 = 0) ∧ i = .readRsp a (rest.take n.toNat) (join ch cl) := by
  unfold decodeResponse at h
  split at h
  · rename_i a f n rest
    split_ifs at h with h1 h2
    split at h
    · rename_i ch cl hd
      cases h
      refine ⟨a, n, rest, ch, cl, by rw [Decidable.not_not.mp h1], hd, fun ho => ?_, rfl⟩
      exact (Nat.mod_two_eq_zero_or_one _).resolve_right fun hn => h2 ⟨ho, hn⟩
    · cases h
  · cases h

end Sys2Proof
end

