-- ==== Sys2Proof/Laws/State.lean ====
section
/-! SUPPORT. The small lemmas of State: one for each field of each update, all true by rfl. -/

namespace Sys2Proof.Machine

open Sys2Proof

section

variable (s : State)

@[simp] theorem State.emit_crchi (e : Event) : (s.emit e).crchi = s.crchi := rfl
@[simp] theorem State.emit_crclo (e : Event) : (s.emit e).crclo = s.crclo := rfl
@[simp] theorem State.emit_expaddr (e : Event) : (s.emit e).expaddr = s.expaddr := rfl
@[simp] theorem State.emit_lastreg (e : Event) : (s.emit e).lastreg = s.lastreg := rfl
@[simp] theorem State.emit_rxbuf (e : Event) : (s.emit e).rxbuf = s.rxbuf := rfl
@[simp] theorem State.emit_tx (e : Event) : (s.emit e).tx = s.tx := rfl
@[simp] theorem State.emit_evt (e : Event) : (s.emit e).evt = s.evt ++ [e] := rfl
@[simp] theorem State.emit_cmd (e : Event) : (s.emit e).cmd = s.cmd := rfl

end

section

variable (s : State)

@[simp] theorem State.send_crchi (bytes : List Byte) : (s.send bytes).crchi = s.crchi := rfl
@[simp] theorem State.send_crclo (bytes : List Byte) : (s.send bytes).crclo = s.crclo := rfl
@[simp] theorem State.send_expaddr (bytes : List Byte) : (s.send bytes).expaddr = s.expaddr := rfl
@[simp] theorem State.send_lastreg (bytes : List Byte) : (s.send bytes).lastreg = s.lastreg := rfl
@[simp] theorem State.send_rxbuf (bytes : List Byte) : (s.send bytes).rxbuf = s.rxbuf := rfl
@[simp] theorem State.send_tx (bytes : List Byte) : (s.send bytes).tx = s.tx ++ bytes := rfl
@[simp] theorem State.send_evt (bytes : List Byte) : (s.send bytes).evt = s.evt := rfl
@[simp] theorem State.send_cmd (bytes : List Byte) : (s.send bytes).cmd = s.cmd := rfl

end

section

variable (s : State)

@[simp] theorem State.setCrc_crchi (acc : Byte × Byte) : (s.setCrc acc).crchi = acc.1 := rfl
@[simp] theorem State.setCrc_crclo (acc : Byte × Byte) : (s.setCrc acc).crclo = acc.2 := rfl
@[simp] theorem State.setCrc_expaddr (acc : Byte × Byte) : (s.setCrc acc).expaddr = s.expaddr := rfl
@[simp] theorem State.setCrc_lastreg (acc : Byte × Byte) : (s.setCrc acc).lastreg = s.lastreg := rfl
@[simp] theorem State.setCrc_rxbuf (acc : Byte × Byte) : (s.setCrc acc).rxbuf = s.rxbuf := rfl
@[simp] theorem State.setCrc_tx (acc : Byte × Byte) : (s.setCrc acc).tx = s.tx := rfl
@[simp] theorem State.setCrc_evt (acc : Byte × Byte) : (s.setCrc acc).evt = s.evt := rfl
@[simp] theorem State.setCrc_cmd (acc : Byte × Byte) : (s.setCrc acc).cmd = s.cmd := rfl

end

section

variable (s : State)

@[simp] theorem State.setExpaddr_crchi (addr : Byte) : (s.setExpaddr addr).crchi = s.crchi := rfl
@[simp] theorem State.setExpaddr_crclo (addr : Byte) : (s.setExpaddr addr).crclo = s.crclo := rfl
@[simp] theorem State.setExpaddr_expaddr (addr : Byte) : (s.setExpaddr addr).expaddr = addr := rfl
@[simp] theorem State.setExpaddr_lastreg (addr : Byte) : (s.setExpaddr addr).lastreg = s.lastreg := rfl
@[simp] theorem State.setExpaddr_rxbuf (addr : Byte) : (s.setExpaddr addr).rxbuf = s.rxbuf := rfl
@[simp] theorem State.setExpaddr_tx (addr : Byte) : (s.setExpaddr addr).tx = s.tx := rfl
@[simp] theorem State.setExpaddr_evt (addr : Byte) : (s.setExpaddr addr).evt = s.evt := rfl
@[simp] theorem State.setExpaddr_cmd (addr : Byte) : (s.setExpaddr addr).cmd = s.cmd := rfl

end

section

variable (s : State)

@[simp] theorem State.setLastreg_crchi (reg : Half) : (s.setLastreg reg).crchi = s.crchi := rfl
@[simp] theorem State.setLastreg_crclo (reg : Half) : (s.setLastreg reg).crclo = s.crclo := rfl
@[simp] theorem State.setLastreg_expaddr (reg : Half) : (s.setLastreg reg).expaddr = s.expaddr := rfl
@[simp] theorem State.setLastreg_lastreg (reg : Half) : (s.setLastreg reg).lastreg = some reg := rfl
@[simp] theorem State.setLastreg_rxbuf (reg : Half) : (s.setLastreg reg).rxbuf = s.rxbuf := rfl
@[simp] theorem State.setLastreg_tx (reg : Half) : (s.setLastreg reg).tx = s.tx := rfl
@[simp] theorem State.setLastreg_evt (reg : Half) : (s.setLastreg reg).evt = s.evt := rfl
@[simp] theorem State.setLastreg_cmd (reg : Half) : (s.setLastreg reg).cmd = s.cmd := rfl

end

section

variable (s : State)

@[simp] theorem State.rxAppend_crchi (b : Byte) : (s.rxAppend b).crchi = s.crchi := rfl
@[simp] theorem State.rxAppend_crclo (b : Byte) : (s.rxAppend b).crclo = s.crclo := rfl
@[simp] theorem State.rxAppend_expaddr (b : Byte) : (s.rxAppend b).expaddr = s.expaddr := rfl
@[simp] theorem State.rxAppend_lastreg (b : Byte) : (s.rxAppend b).lastreg = s.lastreg := rfl
@[simp] theorem State.rxAppend_rxbuf (b : Byte) : (s.rxAppend b).rxbuf = s.rxbuf ++ [b] := rfl
@[simp] theorem State.rxAppend_tx (b : Byte) : (s.rxAppend b).tx = s.tx := rfl
@[simp] theorem State.rxAppend_evt (b : Byte) : (s.rxAppend b).evt = s.evt := rfl
@[simp] theorem State.rxAppend_cmd (b : Byte) : (s.rxAppend b).cmd = s.cmd := rfl

end

section

variable (s : State)

@[simp] theorem State.rxDrop_crchi (n : Nat) : (s.rxDrop n).crchi = s.crchi := rfl
@[simp] theorem State.rxDrop_crclo (n : Nat) : (s.rxDrop n).crclo = s.crclo := rfl
@[simp] theorem State.rxDrop_expaddr (n : Nat) : (s.rxDrop n).expaddr = s.expaddr := rfl
@[simp] theorem State.rxDrop_lastreg (n : Nat) : (s.rxDrop n).lastreg = s.lastreg := rfl
@[simp] theorem State.rxDrop_rxbuf (n : Nat) : (s.rxDrop n).rxbuf = s.rxbuf.drop n := rfl
@[simp] theorem State.rxDrop_tx (n : Nat) : (s.rxDrop n).tx = s.tx := rfl
@[simp] theorem State.rxDrop_evt (n : Nat) : (s.rxDrop n).evt = s.evt := rfl
@[simp] theorem State.rxDrop_cmd (n : Nat) : (s.rxDrop n).cmd = s.cmd := rfl

end

section

variable (s : State)

@[simp] theorem State.rxClear_crchi : (s.rxClear).crchi = s.crchi := rfl
@[simp] theorem State.rxClear_crclo : (s.rxClear).crclo = s.crclo := rfl
@[simp] theorem State.rxClear_expaddr : (s.rxClear).expaddr = s.expaddr := rfl
@[simp] theorem State.rxClear_lastreg : (s.rxClear).lastreg = s.lastreg := rfl
@[simp] theorem State.rxClear_rxbuf : (s.rxClear).rxbuf = [] := rfl
@[simp] theorem State.rxClear_tx : (s.rxClear).tx = s.tx := rfl
@[simp] theorem State.rxClear_evt : (s.rxClear).evt = s.evt := rfl
@[simp] theorem State.rxClear_cmd : (s.rxClear).cmd = s.cmd := rfl

end

section

variable (s : State)

@[simp] theorem State.acceptFrame_crchi (n : Byte) : (s.acceptFrame n).crchi = s.crchi := rfl
@[simp] theorem State.acceptFrame_crclo (n : Byte) : (s.acceptFrame n).crclo = s.crclo := rfl
@[simp] theorem State.acceptFrame_expaddr (n : Byte) : (s.acceptFrame n).expaddr = s.expaddr := rfl
@[simp] theorem State.acceptFrame_lastreg (n : Byte) : (s.acceptFrame n).lastreg = s.lastreg := rfl
@[simp] theorem State.acceptFrame_rxbuf (n : Byte) : (s.acceptFrame n).rxbuf = s.rxbuf.drop (responseLength n) := rfl
@[simp] theorem State.acceptFrame_tx (n : Byte) : (s.acceptFrame n).tx = s.tx := rfl
@[simp] theorem State.acceptFrame_evt (n : Byte) : (s.acceptFrame n).evt = s.evt ++ [.frame s.lastreg (responsePayload s.rxbuf n)] := rfl
@[simp] theorem State.acceptFrame_cmd (n : Byte) : (s.acceptFrame n).cmd = s.cmd := rfl

end

section

variable (s : State)

@[simp] theorem State.buildReadRequest_crchi (dev : Byte) (reg count : Half) : (s.buildReadRequest dev reg count).crchi = s.crchi := rfl
@[simp] theorem State.buildReadRequest_crclo (dev : Byte) (reg count : Half) : (s.buildReadRequest dev reg count).crclo = s.crclo := rfl
@[simp] theorem State.buildReadRequest_expaddr (dev : Byte) (reg count : Half) : (s.buildReadRequest dev reg count).expaddr = s.expaddr := rfl
@[simp] theorem State.buildReadRequest_lastreg (dev : Byte) (reg count : Half) : (s.buildReadRequest dev reg count).lastreg = some reg := rfl
@[simp] theorem State.buildReadRequest_rxbuf (dev : Byte) (reg count : Half) : (s.buildReadRequest dev reg count).rxbuf = s.rxbuf := rfl
@[simp] theorem State.buildReadRequest_tx (dev : Byte) (reg count : Half) : (s.buildReadRequest dev reg count).tx = s.tx ++ buildFrame dev Config.funcRead reg count := rfl
@[simp] theorem State.buildReadRequest_evt (dev : Byte) (reg count : Half) : (s.buildReadRequest dev reg count).evt = s.evt := rfl
@[simp] theorem State.buildReadRequest_cmd (dev : Byte) (reg count : Half) : (s.buildReadRequest dev reg count).cmd = s.cmd := rfl

end

section

variable (s : State)

@[simp] theorem State.buildWriteRequest_crchi (dev : Byte) (reg value : Half) : (s.buildWriteRequest dev reg value).crchi = s.crchi := rfl
@[simp] theorem State.buildWriteRequest_crclo (dev : Byte) (reg value : Half) : (s.buildWriteRequest dev reg value).crclo = s.crclo := rfl
@[simp] theorem State.buildWriteRequest_expaddr (dev : Byte) (reg value : Half) : (s.buildWriteRequest dev reg value).expaddr = s.expaddr := rfl
@[simp] theorem State.buildWriteRequest_lastreg (dev : Byte) (reg value : Half) : (s.buildWriteRequest dev reg value).lastreg = s.lastreg := rfl
@[simp] theorem State.buildWriteRequest_rxbuf (dev : Byte) (reg value : Half) : (s.buildWriteRequest dev reg value).rxbuf = s.rxbuf := rfl
@[simp] theorem State.buildWriteRequest_tx (dev : Byte) (reg value : Half) : (s.buildWriteRequest dev reg value).tx = s.tx ++ buildFrame dev Config.funcWrite reg value := rfl
@[simp] theorem State.buildWriteRequest_evt (dev : Byte) (reg value : Half) : (s.buildWriteRequest dev reg value).evt = s.evt := rfl
@[simp] theorem State.buildWriteRequest_cmd (dev : Byte) (reg value : Half) : (s.buildWriteRequest dev reg value).cmd = s.cmd := rfl

end

section

variable (s : State)

@[simp] theorem State.takeCondition_mismatch (c : DropCause) (b : Byte) :
    s.takeCondition (.mismatch c b) = (s.emit (.drop c b)).rxDrop 1 := rfl

@[simp] theorem State.takeCondition_overflow (n : Nat) :
    s.takeCondition (.overflow n) = (s.emit (.overflow n)).rxClear := rfl

@[simp] theorem State.takeCondition_illegalOp (op : Byte) :
    s.takeCondition (.illegalOp op) = s.emit (.illegalOp op) := rfl

@[simp] theorem State.takeNoise_inbound (bytes : List Byte) : s.takeNoise (.inbound bytes) = s.receiveAll bytes := rfl

@[simp] theorem State.takeNoise_outbound (bytes : List Byte) : s.takeNoise (.outbound bytes) = s := rfl

@[simp] theorem State.receiveAll_nil : s.receiveAll [] = s := rfl

@[simp] theorem State.receiveAll_cons (b : Byte) (bytes : List Byte) :
    s.receiveAll (b :: bytes) = (s.receive b).receiveAll bytes := rfl

@[simp] theorem State.receiveAll_append (x y : List Byte) : s.receiveAll (x ++ y) = (s.receiveAll x).receiveAll y :=
  List.foldl_append

end

end Sys2Proof.Machine
end

