-- ==== Sys2Proof/Laws/Parser.lean ====
section
/-! SUPPORT. What the shared operations of the parser can do, said once: the memory form, the head tests, one turn of the
scan, the scan. -/

namespace Sys2Proof.Machine

open Sys2Proof

/-! The buffer primitives keep the memory's form (R17, R31 to R33). -/

theorem Memory.wf_rxDrop (s : State) (n : Nat) (h : Memory.wf s.rxbuf = true) : Memory.wf (s.rxDrop n).rxbuf = true := by
  simp [Memory.wf] at *
  omega

theorem Memory.wf_rxClear (s : State) : Memory.wf s.rxClear.rxbuf = true := by simp [Memory.wf]

theorem Memory.wf_reset : Memory.wf State.reset.rxbuf = true := by decide

/-- RxAppend takes the buffer at most one byte past the form (R17). -/
theorem rxAppend_length_le (s : State) (b : Byte) (h : Memory.wf s.rxbuf = true) :
    (s.rxAppend b).rxbuf.length ≤ Config.rxCap + 1 := by
  simp [Memory.wf] at *
  omega

/-- The guard establishes the form, from any state (R130). -/
theorem Memory.wf_guard (s : State) : Memory.wf s.guard.rxbuf = true := by
  unfold State.guard
  split
  · simp [Memory.wf]
  · rename_i h
    simpa [Memory.wf] using h

/-! The head tests (R121, R176). -/

/-- The tests on a buffer of at least three bytes, with the buffer kept whole. -/
theorem headTest_eq (o : Bool) (e : Byte) {buf : List Byte} {h0 h1 h2 : Byte} {rest : List Byte}
    (h : buf = h0 :: h1 :: h2 :: rest) :
    headTest o e buf =
      if buf.length < 5 then .wait
      else if h0 ≠ e then .mismatch .addrMismatch h0
      else if h1 ≠ 0x03 then .mismatch .funcMismatch h0
      else if o ∧ h2.toNat % 2 = 1 then .mismatch .oddLen h0
      else if buf.length < h2.toNat + 5 then .wait
      else if trailerMatches buf (h2.toNat + 5) then .accept h2
      else .mismatch .crcMismatch h0 := by
  subst h
  rfl

theorem headTest_short (o : Bool) (e : Byte) {buf : List Byte} (h : buf.length < 5) : headTest o e buf = .wait := by
  unfold headTest
  split
  · rw [if_pos (by simpa using h)]
  · rfl

theorem headTest_mismatch {o : Bool} {e b : Byte} {c : DropCause} {buf : List Byte}
    (h : headTest o e buf = .mismatch c b) : 5 ≤ buf.length ∧ ∃ rest, buf = b :: rest := by
  unfold headTest at h
  split at h
  · rename_i h0 h1 h2 rest
    split at h
    · cases h
    · rename_i hlen
      refine ⟨Nat.le_of_not_lt hlen, h1 :: h2 :: rest, ?_⟩
      repeat' (first | cases h | split at h)
      all_goals rfl
  · cases h

theorem headTest_accept {o : Bool} {e n : Byte} {buf : List Byte} (h : headTest o e buf = .accept n) :
    (∃ rest, buf = e :: Config.funcRead :: n :: rest) ∧ (o = true → n.toNat % 2 = 0) ∧
      responseLength n ≤ buf.length ∧ trailerMatches buf (responseLength n) = true := by
  unfold headTest at h
  split at h
  · rename_i h0 h1 h2 rest
    split_ifs at h with a1 a2 a3 a4 a5 a6
    cases h
    have e0 := Decidable.not_not.mp a2
    have e1 := Decidable.not_not.mp a3
    refine ⟨⟨rest, by rw [e0, e1]⟩, fun ho => ?_, Nat.le_of_not_lt a5, a6⟩
    exact (Nat.mod_two_eq_zero_or_one _).resolve_right fun hn => a4 ⟨ho, hn⟩
  · cases h

theorem headTest_wait {o : Bool} {e : Byte} {buf : List Byte} (h : headTest o e buf = .wait) :
    buf.length < 5 ∨ ∃ n rest, buf = e :: Config.funcRead :: n :: rest ∧ (o = true → n.toNat % 2 = 0) ∧
      buf.length < responseLength n := by
  unfold headTest at h
  split at h
  · rename_i h0 h1 h2 rest
    split_ifs at h with a1 a2 a3 a4 a5 a6
    · left; exact a1
    · right
      have e0 := Decidable.not_not.mp a2
      have e1 := Decidable.not_not.mp a3
      refine ⟨h2, rest, by rw [e0, e1], fun ho => ?_, a5⟩
      exact (Nat.mod_two_eq_zero_or_one _).resolve_right fun hn => a4 ⟨ho, hn⟩
  · left
    rename_i hne
    rcases buf with _ | ⟨x, _ | ⟨y, _ | ⟨z, w⟩⟩⟩
    · simp
    · simp
    · simp
    · exact absurd rfl (hne x y z w)

/-- A trailer that matches splits the buffer into the bytes the CRC covers, their CRC, and what follows (R127). -/
theorem trailerMatches_split {buf : List Byte} {len : Nat} (h2 : 2 ≤ len)
    (h : trailerMatches buf len = true) :
    buf = buf.take (len - 2) ++ [hi8 (crc16 (buf.take (len - 2))), lo8 (crc16 (buf.take (len - 2)))] ++ buf.drop len := by
  simp only [trailerMatches, crc16First, Bool.and_eq_true, beq_iff_eq] at h
  obtain ⟨ha, hb⟩ := h
  have e1 : len - 2 + 1 = len - 1 := by omega
  have e2 : len - 1 + 1 = len := by omega
  obtain ⟨la, ga⟩ := List.getElem?_eq_some_iff.mp ha
  obtain ⟨lb, gb⟩ := List.getElem?_eq_some_iff.mp hb
  have d1 : buf.drop (len - 2) = buf[len - 2] :: buf.drop (len - 1) := by
    rw [List.drop_eq_getElem_cons la, e1]
  have d2 : buf.drop (len - 1) = buf[len - 1] :: buf.drop len := by
    rw [List.drop_eq_getElem_cons lb, e2]
  conv_lhs => rw [← List.take_append_drop (len - 2) buf, d1, d2, ga, gb]
  simp

/-- The payload that an accepted frame delivers is MemRead(3, N) (R8, R56). -/
theorem memRead_payload (s : State) (n : Byte) (h : responseLength n ≤ s.rxbuf.length) :
    s.memRead 3 n.toNat = some (responsePayload s.rxbuf n) := by
  have h3 : 3 + n.toNat ≤ s.rxbuf.length := by simp [responseLength] at h; omega
  simp [State.memRead, responsePayload, h3]

/-! One turn of the scan, and the scan (R121, R131). -/

/-- A turn stops, drops the head byte, or removes an accepted frame; it changes RXBUF and EVT and nothing else. -/
theorem scanTurn_cases {s t : State} (h : s.scanTurn = some t) :
    (∃ c b, s.verdict = .mismatch c b ∧ t = (s.emit (.drop c b)).rxDrop 1) ∨
      ∃ n, s.verdict = .accept n ∧ t = s.acceptFrame n := by
  unfold State.scanTurn at h
  split at h
  · cases h
  · rename_i c b hv
    exact .inl ⟨c, b, hv, by simpa using h.symm⟩
  · rename_i n hv
    exact .inr ⟨n, hv, by simpa using h.symm⟩

theorem scanTurn_none {s : State} : s.scanTurn = none ↔ s.verdict = .wait := by
  unfold State.scanTurn
  split <;> simp_all

/-- Where the head tests fail, the scan goes on behind the head byte (R123 to R125, R129). -/
theorem scanTurn_of_mismatch {s : State} {c : DropCause} {b : Byte} {rest : List Byte} (hb : s.rxbuf = b :: rest)
    (h : s.verdict = .mismatch c b) :
    s.scanTurn = some { s with rxbuf := rest, evt := s.evt ++ [.drop c b] } := by
  unfold State.scanTurn
  rw [h]
  simp [State.emit, State.rxDrop, hb]

/-- Every turn that goes on shortens the buffer (R131). -/
theorem scanTurn_shortens {s t : State} (h : s.scanTurn = some t) : t.rxbuf.length < s.rxbuf.length := by
  obtain ⟨c, b, hv, rfl⟩ | ⟨n, hv, rfl⟩ := scanTurn_cases h
  · obtain ⟨h5, -⟩ := headTest_mismatch hv
    simp; omega
  · obtain ⟨-, -, hl, -⟩ := headTest_accept hv
    simp [responseLength] at *; omega

/-- Turns beyond the length of the buffer change nothing: the scan has stopped (R131). -/
theorem scanFor_stable {k m : Nat} {s : State} (hk : s.rxbuf.length ≤ k) (hm : s.rxbuf.length ≤ m) :
    s.scanFor k = s.scanFor m := by
  induction k generalizing m s with
  | zero =>
    have hs : s.scanTurn = none := by
      cases ht : s.scanTurn with
      | none => rfl
      | some t => have := scanTurn_shortens ht; omega
    cases m <;> simp [State.scanFor, hs]
  | succ k ih =>
    cases ht : s.scanTurn with
    | none => cases m <;> simp [State.scanFor, ht]
    | some t =>
      have hlt := scanTurn_shortens ht
      cases m with
      | zero => omega
      | succ m => simp only [State.scanFor, ht]; exact ih (by omega) (by omega)

/-- The loop of R121: stop, or take one turn and begin again at step 1. -/
theorem scan_eq (s : State) : s.scan = match s.scanTurn with | none => s | some t => t.scan := by
  unfold State.scan
  cases ht : s.scanTurn with
  | none => cases hl : s.rxbuf.length <;> simp [State.scanFor, ht]
  | some t =>
    have hlt := scanTurn_shortens ht
    cases hl : s.rxbuf.length with
    | zero => omega
    | succ k => simp only [State.scanFor, ht]; exact scanFor_stable (by omega) le_rfl

/-- Induction over the scan: what holds where it stops, and before a turn whenever it holds after it, holds. -/
theorem scan_induction {P : State → State → Prop} (stop : ∀ s, s.scanTurn = none → P s s)
    (turn : ∀ s t, s.scanTurn = some t → P t t.scan → P s t.scan) (s : State) : P s s.scan := by
  induction hn : s.rxbuf.length using Nat.strong_induction_on generalizing s with
  | _ n ih =>
    rw [scan_eq]
    cases ht : s.scanTurn with
    | none => exact stop s ht
    | some t => exact turn s t ht (ih t.rxbuf.length (by have := scanTurn_shortens ht; omega) t rfl)

/-- The scan stops only where the head tests wait. -/
theorem scan_waits (s : State) : s.scan.scanTurn = none :=
  scan_induction (P := fun _ u => u.scanTurn = none) (fun _ h => h) (fun _ _ _ h => h) s

/-- The scan's frame: RXBUF loses bytes at its head, EVT grows, nothing else changes (R120). -/
theorem scan_frame (s : State) :
    ∃ n es, s.scan = { s with rxbuf := s.rxbuf.drop n, evt := s.evt ++ es } := by
  refine scan_induction (P := fun s u => ∃ n es, u = { s with rxbuf := s.rxbuf.drop n, evt := s.evt ++ es })
    (fun s _ => ⟨0, [], by simp⟩) ?_ s
  rintro s t ht ⟨n, es, hu⟩
  obtain ⟨c, b, -, rfl⟩ | ⟨m, -, rfl⟩ := scanTurn_cases ht
  · refine ⟨1 + n, .drop c b :: es, ?_⟩
    rw [hu]
    simp [State.emit, State.rxDrop, Nat.add_comm]
  · refine ⟨responseLength m + n, .frame s.lastreg (responsePayload s.rxbuf m) :: es, ?_⟩
    rw [hu]
    simp [State.acceptFrame, State.emit, State.rxDrop]

/-- The guard clears a buffer over the bound and reports its length, or does nothing (R130). -/
theorem guard_cases (s : State) :
    (256 < s.rxbuf.length ∧ s.guard = { s with rxbuf := [], evt := s.evt ++ [.overflow s.rxbuf.length] }) ∨
      (s.rxbuf.length ≤ 256 ∧ s.guard = s) := by
  unfold State.guard
  split
  · exact .inl ⟨‹_›, rfl⟩
  · exact .inr ⟨Nat.le_of_not_lt ‹_›, rfl⟩

end Sys2Proof.Machine
end

