-- ==== Sys2Proof/Laws/PerInstr.lean ====
section
/-! SUPPORT. Per instruction: its packet has the shape of its row (30_encoding.md R50, R51, R53). -/

namespace Sys2Proof.Laws.RowShape

open Sys2Proof Sys2Proof.Machine

/-- The number of bits of the packet an instruction encodes to. -/
def bits (p : Packet) : Nat :=
  match p with
  | .command _ => 48
  | .outbound bytes => 8 * bytes.length
  | .inbound bytes => 8 * bytes.length

/-- The width that the instruction's row of spec/opcode_table.json gives it. -/
def rowWidth (i : Instr) : Nat :=
  match i with
  | .crcClr | .crcByte _ | .crcGet | .buildRead _ _ _ | .buildWrite _ _ _ | .rxByte _ | .rxReset | .setAddr _
  | .reserved _ => 48
  | .readReq _ _ _ | .writeReq _ _ _ => 64
  | .readRsp _ payload _ => 8 * (payload.length + 5)

/-- The packet of `i` is as wide as its row. -/
def Statement (i : Instr) : Prop := bits (encode i) = rowWidth i

theorem crcClr : Statement .crcClr := rfl
theorem crcByte (b : Byte) : Statement (.crcByte b) := rfl
theorem crcGet : Statement .crcGet := rfl
theorem buildRead (dev : Byte) (reg count : Half) : Statement (.buildRead dev reg count) := rfl
theorem buildWrite (dev : Byte) (reg value : Half) : Statement (.buildWrite dev reg value) := rfl
theorem rxByte (b : Byte) : Statement (.rxByte b) := rfl
theorem rxReset : Statement .rxReset := rfl
theorem setAddr (addr : Byte) : Statement (.setAddr addr) := rfl
theorem reserved (op : Byte) : Statement (.reserved op) := rfl
theorem readReq (address : Byte) (reg count : Half) : Statement (.readReq address reg count) := rfl
theorem writeReq (address : Byte) (reg value : Half) : Statement (.writeReq address reg value) := rfl
theorem readRsp (address : Byte) (payload : List Byte) (crc : Half) : Statement (.readRsp address payload crc) := by
  simp [Statement, bits, rowWidth, encode]

end Sys2Proof.Laws.RowShape
end

