-- ==== Sys2Proof/Tests/Slice0.lean ====
section
/-! SUPPORT. The implementer's own tests: the checks of WellFormed, decoding of words written out from the spec, one step on a
small state for each instruction, and a witness for the hypotheses of each obligation that has some. Expected values are
those of the spec's tables, worked examples and vectors, named at each test. -/

namespace Sys2Proof.Tests

open Sys2Proof Sys2Proof.Machine

/-- The state after reset with a buffer. -/
def buffered (buf : List Byte) : State := { State.reset with rxbuf := buf }

/-- The same after a BUILD_READ of register 0x34. -/
def keyed (buf : List Byte) : State := { State.reset with rxbuf := buf, lastreg := some 0x34 }

/-- Reset with one packet presented. -/
def presented (p : Packet) : State := { State.reset with cmd := [p] }

/-- Does an outcome answer a next state with a property? -/
def after (o : Host.Outcome State Fault Refusal) (f : State → Bool) : Bool :=
  match o with
  | .next t => f t
  | .fault _ => false
  | .refused _ => false

/-- Does a result of the decoder name this instruction? -/
def decodesTo (r : Except DecodeError Instr) (i : Instr) : Bool :=
  match r with
  | .ok j => j == i
  | .error _ => false

/-- Does the decoder refuse for this reason? -/
def refusedFor (r : Except DecodeError Instr) (why : DecodeError) : Bool :=
  match r with
  | .ok _ => false
  | .error e => e == why

/-! ### WellFormed (R51, R57, R59) -/

theorem test_wf_reserved_takes_only_reserved_codes :
    (WellFormed (.reserved 0x01), WellFormed (.reserved 0x08), WellFormed (.reserved 0x00), WellFormed (.reserved 0x09),
      WellFormed (.reserved 0xFF)) = (false, false, true, true, true) := by decide

theorem test_wf_response_refuses_odd_payload : WellFormed (.readRsp 0x50 [1, 2, 3] 0) = false := by decide

theorem test_wf_response_refuses_long_payload :
    (payloadFits true (List.replicate 256 0), payloadFits true (List.replicate 254 0)) = (false, true) := by decide +kernel

/-- R51 with ODD_LEN_REJECT false: the length is a free eight bits, and no more than that. -/
theorem test_wf_response_odd_payload_without_reject :
    (payloadFits false [1, 2, 3], payloadFits false (List.replicate 255 0), payloadFits false (List.replicate 256 0)) =
      (true, true, false) := by decide +kernel

/-! ### Decoding of words written out from R53, R57 (op in bits 47:40, a in 39:32, r in 31:16, v in 15:0) -/

theorem test_decode_crcClr : decodeTableWord 48 0x010000000000 = some .crcClr := by decide
/-- X6: unused fields are ignored. -/
theorem test_decode_crcClr_ignores_fields : decodeTableWord 48 0x01FFFFFFFFFF = some .crcClr := by decide
theorem test_decode_crcByte : decodeTableWord 48 0x025000000000 = some (.crcByte 0x50) := by decide
theorem test_decode_crcGet : decodeTableWord 48 0x030000000000 = some .crcGet := by decide
/-- A11. -/
theorem test_decode_buildRead : decodeTableWord 48 0x04501234ABCD = some (.buildRead 0x50 0x1234 0xABCD) := by decide
/-- A18. -/
theorem test_decode_buildWrite : decodeTableWord 48 0x05500069B588 = some (.buildWrite 0x50 0x0069 0xB588) := by decide
/-- X7. -/
theorem test_decode_rxByte : decodeTableWord 48 0x0650FFFFFFFF = some (.rxByte 0x50) := by decide
/-- X4. -/
theorem test_decode_rxReset : decodeTableWord 48 0x070000000000 = some .rxReset := by decide
/-- X5. -/
theorem test_decode_setAddr : decodeTableWord 48 0x085100000000 = some (.setAddr 0x51) := by decide
/-- X1, X3. -/
theorem test_decode_reserved : decodeTableWord 48 0x000000000000 = some (.reserved 0x00) ∧
    decodeTableWord 48 0xFF0000000000 = some (.reserved 0xFF) := by decide
/-- A11's frame, by R50. -/
theorem test_decode_readReq : decodesTo (decode (.outbound [0x50, 0x03, 0x12, 0x34, 0xAB, 0xCD, 0xB2, 0x58]))
    (.readReq 0x50 0x1234 0xABCD) = true := by decide
/-- A16's frame, by R50. -/
theorem test_decode_writeReq : decodesTo (decode (.outbound [0x50, 0x06, 0x12, 0x34, 0xAB, 0xCD, 0x7E, 0x58]))
    (.writeReq 0x50 0x1234 0xABCD) = true := by decide
/-- F3, by R51. -/
theorem test_decode_readRsp : decodesTo (decode (.inbound [0x50, 0x03, 0x04, 0x9C, 0x40, 0x09, 0xE9, 0x52, 0xAC]))
    (.readRsp 0x50 [0x9C, 0x40, 0x09, 0xE9] 0x52AC) = true := by decide
/-- The header of READ_RSP alone, as the table numbers it, with zeros behind it. -/
theorem test_decode_readRsp_header : decodeTableWord 24 0x500302 = some (.readRsp 0x50 [0, 0] 0) := by decide
/-- Program 2, line 0, by R62: the encoder writes unused fields as zero and the op in the highest byte. -/
theorem test_encode_words : encode (.buildRead 0x50 0x34 19) = .command 0x045000340013 ∧
    encode .rxReset = .command 0x070000000000 := by decide
/-- R55: the trailer selects nothing and is no operand (A1's and A12's bytes with zeros there). -/
theorem test_decode_request_trailer_free :
    decodeTableWord 64 0x5003003400130000 = some (.readReq 0x50 0x34 19) ∧
      decodeTableWord 64 0x5006001A00510000 = some (.writeReq 0x50 0x1A 0x51) := by decide
/-- R50: another function code or another length is no request. -/
theorem test_decode_refuses_bad_request :
    refusedFor (decode (.outbound [0x50, 0x03, 0x00, 0x34, 0x00, 0x13, 0x48])) .length = true ∧
      refusedFor (decode (.outbound [0x50, 0x10, 0x00, 0x34, 0x00, 0x13, 0x48, 0x48])) .function = true := by decide
/-- R51: odd payloadLen (F5), wrong function, wrong length. -/
theorem test_decode_refuses_bad_response :
    refusedFor (decode (.inbound [0x50, 0x03, 0x03, 0x01, 0x02, 0x03, 0x58, 0xAE])) .oddLength = true ∧
      refusedFor (decode (.inbound [0x50, 0x83, 0x00, 0x71, 0x21])) .function = true ∧
      refusedFor (decode (.inbound [0x50, 0x03, 0x02, 0x71, 0x21])) .length = true ∧
      refusedFor (decode (.inbound [0x50, 0x03])) .length = true := by decide

/-- R51, D10: with ODD_LEN_REJECT false, F5 is a frame of format RS; an even one is so as before (F1). -/
theorem test_decode_odd_response_without_reject :
    decodesTo (decodeResponse false [0x50, 0x03, 0x03, 0x01, 0x02, 0x03, 0x58, 0xAE])
      (.readRsp 0x50 [0x01, 0x02, 0x03] 0x58AE) = true ∧
      decodesTo (decodeResponse false [0x50, 0x03, 0x00, 0x71, 0x21]) (.readRsp 0x50 [] 0x7121) = true := by decide

/-! ### CRC (vectors C1 to C24, R81) -/

/-- R81's checks: entries 1 and 0xFF of both tables. -/
theorem test_tables : (tabHi 0x01, tabLo 0x01, tabHi 0xFF, tabLo 0xFF, tabHi 0xAF, tabLo 0xAF) =
    (0xC1, 0xC0, 0x40, 0x40, 0x40, 0x7C) := by decide
/-- C6, C7. -/
theorem test_crcStep : (crcStep (0x12, 0x34) 0x56, crcStep (0x00, 0xAB) 0x00) = ((0x34, 0x33), (0xAB, 0x00)) := by decide
/-- C9: ASCII "123456789". -/
theorem test_crc16_check_value : crc16 [0x31, 0x32, 0x33, 0x34, 0x35, 0x36, 0x37, 0x38, 0x39] = 0x374B := by decide
/-- R88: the catalogue check value. -/
theorem test_canon_check_value : canon [0x31, 0x32, 0x33, 0x34, 0x35, 0x36, 0x37, 0x38, 0x39] = 0x4B37 := by decide +kernel
/-- C24: a trailer in the wrong order leaves no zero residue. -/
theorem test_crc16_wrong_order : crc16 [0x01, 0x03, 0x00, 0x00, 0x00, 0x01, 0x0A, 0x84] = 0xE5C4 := by decide

/-! ### One step of each instruction -/

/-- R82's example. -/
theorem test_crcClr : after (exec .crcClr { State.reset with crchi := 0x48, crclo := 0x48 })
    (fun t => t.crchi == 0xFF && t.crclo == 0xFF) = true := by decide
/-- R83's example. -/
theorem test_crcByte : after (exec (.crcByte 0x50) State.reset) (fun t => t.crchi == 0xBF && t.crclo == 0x7C) = true := by
  decide
/-- C26, C27: the high accumulator in bits 15 to 8; the registers stay. -/
theorem test_crcGet : after (exec .crcGet { State.reset with crchi := 0x7E, crclo := 0x80 })
    (fun t => t.evt == [.crcVal 0x7E80] && t.crchi == 0x7E && t.crclo == 0x80) = true := by decide
/-- A11. -/
theorem test_buildRead_frame : after (exec (.buildRead 0x50 0x1234 0xABCD) State.reset)
    (fun t => t.tx == [0x50, 0x03, 0x12, 0x34, 0xAB, 0xCD, 0xB2, 0x58] && t.lastreg == some 0x1234) = true := by decide
/-- A8: count 0 and address 0 are not special. -/
theorem test_buildRead_zero : after (exec (.buildRead 0 0 0) (keyed []))
    (fun t => t.tx == [0x00, 0x03, 0x00, 0x00, 0x00, 0x00, 0x44, 0x1B] && t.lastreg == some 0) = true := by decide
/-- A17: function 06, LASTREG unchanged. -/
theorem test_buildWrite_frame : after (exec (.buildWrite 0x50 0x0034 0x0013) State.reset)
    (fun t => t.tx == [0x50, 0x06, 0x00, 0x34, 0x00, 0x13, 0x84, 0x48] && t.lastreg == none) = true := by decide
/-- P17: one RX_BYTE drops a false header and delivers two frames, in order; P14, R186: without a key a match is delivered
with key none. -/
theorem test_rxByte_delivers :
    after (exec (.rxByte 0x48)
      (keyed [0x50, 0x03, 0x0A, 0x50, 0x03, 0x00, 0x71, 0x21, 0x50, 0x03, 0x02, 0x40, 0x00, 0x74]))
      (fun t => t.rxbuf == [] && t.evt ==
        [.drop .crcMismatch 0x50, .drop .addrMismatch 0x03, .drop .addrMismatch 0x0A, .frame (some 0x34) [],
          .frame (some 0x34) [0x40, 0x00]]) = true ∧
      after (exec (.rxByte 0x48) (buffered [0x50, 0x03, 0x02, 0x40, 0x00, 0x74]))
        (fun t => t.rxbuf == [] && t.evt == [.frame none [0x40, 0x00]]) = true := by decide
/-- Program 5, line 259: the 257th byte behind a header that can never complete; F7, R138 (b): the 257th byte of the largest
frame completes it before the guard looks. -/
theorem test_rxByte_at_the_bound :
    after (exec (.rxByte 0x00) (keyed ([0x50, 0x03, 0xFE] ++ List.replicate 253 0x00)))
      (fun t => t.rxbuf == [] && t.evt == [.overflow 257]) = true ∧
      after (exec (.rxByte 0x53)
        (keyed ([0x50, 0x03, 0xFC] ++ (List.range 252).map (fun i => BitVec.ofNat 8 (7 * i + 3)) ++ [0xF9])))
        (fun t => t.rxbuf == [] &&
          t.evt == [.frame (some 0x34) ((List.range 252).map (fun i => BitVec.ofNat 8 (7 * i + 3)))]) = true := by
  decide +kernel
/-- X4: the other registers stay. -/
theorem test_rxReset : after (exec .rxReset (keyed [0x50, 0x03]))
    (fun t => t == keyed []) = true := by decide
/-- X5: no rescan. -/
theorem test_setAddr : after (exec (.setAddr 0x51) (buffered [0x50, 0x03, 0x02, 0x40]))
    (fun t => t.expaddr == 0x51 && t.rxbuf == [0x50, 0x03, 0x02, 0x40] && t.evt == []) = true := by decide
/-- X2. -/
theorem test_reserved : after (step (State.reset.withFetchWord 48 0x09AABBCCDDEE))
    (fun t => t == { State.reset with evt := [.illegalOp 0x09] }) = true := by decide
/-- A1's frame, as the row READ_REQ. -/
theorem test_readReq : after (exec (.readReq 0x50 0x34 19) State.reset)
    (fun t => t.tx == [0x50, 0x03, 0x00, 0x34, 0x00, 0x13, 0x48, 0x48] && t.lastreg == some 0x34) = true := by decide
/-- A12's frame, as the row WRITE_REQ. -/
theorem test_writeReq : after (exec (.writeReq 0x50 0x1A 0x51) State.reset)
    (fun t => t.tx == [0x50, 0x06, 0x00, 0x1A, 0x00, 0x51, 0x64, 0x70] && t.lastreg == none) = true := by decide
/-- P1: the empty response F1 is accepted. -/
theorem test_readRsp_accepted : after (step { keyed [] with cmd := [.inbound [0x50, 0x03, 0x00, 0x71, 0x21]] })
    (fun t => t.rxbuf == [] && t.evt == [.frame (some 0x34) []]) = true := by decide
/-- P28: the second trailer byte is wrong. -/
theorem test_readRsp_bad_crc : after (step { keyed [] with cmd := [.inbound [0x50, 0x03, 0x00, 0x71, 0x20]] })
    (fun t => t.rxbuf == [0x03, 0x00, 0x71, 0x20] && t.evt == [.drop .crcMismatch 0x50]) = true := by decide

/-! ### Conditions of the parser -/

/-- P23, P24, P25: the first failing test decides the cause (R176). -/
theorem test_priority :
    (headTest true 0x50 [0x51, 0x06, 0x03, 0x00, 0x00], headTest true 0x50 [0x50, 0x06, 0x03, 0x00, 0x00],
      headTest true 0x50 [0x50, 0x03, 0x03, 0x00, 0x00]) =
      (.mismatch .addrMismatch 0x51, .mismatch .funcMismatch 0x50, .mismatch .oddLen 0x50) := by decide
/-- P26, P27, P29, and P25 with ODD_LEN_REJECT false (a wait). -/
theorem test_waits_and_trailer :
    (headTest true 0x50 [0x50, 0x03, 0x02, 0x00, 0x00], headTest true 0x50 [0x50, 0x03, 0x00, 0x00, 0x00],
      headTest true 0x50 [0x50, 0x03, 0x00, 0x21, 0x71], headTest false 0x50 [0x50, 0x03, 0x03, 0x00, 0x00]) =
      (.wait, .mismatch .crcMismatch 0x50, .mismatch .crcMismatch 0x50, .wait) := by decide
/-- R133: payloadLen + 5 is not reduced modulo 256. -/
theorem test_length_not_wrapped : headTest true 0x50 [0x50, 0x03, 0xFC, 0x00, 0x00, 0x00] = .wait := by decide
/-- R170's cause numbers and R54's event codes. -/
theorem test_numbers :
    ((Condition.mismatch .crcMismatch 0).cause, (Condition.overflow 257).cause, (Condition.illegalOp 0).cause,
      (Event.illegalOp 0).code, (Event.crcVal 0).code) = (4, 5, 6, 0x05, 0x01) := by decide
/-! ### The step and what is presented -/

theorem test_reset_idles : after (step State.reset) (fun t => t == State.reset) = true := by decide
/-- P24 in one packet: a wrong function code is noise, not a stop (R58 (b)). -/
theorem test_step_noise_function : after (step { keyed [] with cmd := [.inbound [0x50, 0x06, 0x03, 0x00, 0x00]] })
    (fun t => t.evt == [.drop .funcMismatch 0x50] && t.rxbuf == [0x06, 0x03, 0x00, 0x00] && t.cmd == []) = true := by decide
/-- P7's first eight bytes in one packet: a write echo is noise (R210). -/
theorem test_step_noise_echo :
    after (step { keyed [] with cmd := [.inbound [0x50, 0x06, 0x00, 0x1A, 0x00, 0x51, 0x64, 0x70]] })
      (fun t => t.evt == [.drop .funcMismatch 0x50, .drop .addrMismatch 0x06, .drop .addrMismatch 0x00,
        .drop .addrMismatch 0x1A] && t.rxbuf == [0x00, 0x51, 0x64, 0x70] && t.tx == []) = true := by decide
/-- READ_RSP from the table's header word is the first instruction after reset. -/
theorem test_first_readRsp : after (step (State.reset.withFetchWord 24 0x000300))
    (fun t => t.cmd == [] && t.evt == [.drop .addrMismatch 0x00] && t.rxbuf == [0x03, 0x00, 0x00, 0x00]) = true := by decide
theorem test_first_readReq : after (step (State.reset.withFetchWord 64 0x5003003400134848))
    (fun t => t.tx == [0x50, 0x03, 0x00, 0x34, 0x00, 0x13, 0x48, 0x48]) = true := by decide

/-! ### Register walk (section 2.6) -/

/-- W2 to W5, W9: the sign rule. -/
theorem test_signed : (signedRaw 0x7FFF, signedRaw 0x8000, signedRaw 0x8001, signedRaw 0xFFFF, signedRaw 0x9C40) =
    (32767, 32768, -32766, 0, -25535) := by decide
/-- W1, rows 0, 8, 12, and W10: channels. -/
theorem test_channels :
    ((lookupRegister 0x34).1.key, (lookupRegister 0x3C).1.key, (lookupRegister 0x40).1.key, (lookupRegister 0x1007C).1) =
      (some "accel_x", some "vib_speed_z", some "temperature", .raw 0x1007C) := by decide
/-- S5: 16384 in the acceleration range is 8 g, 40000 is -25535/2048 g. -/
theorem test_walk_s5 : walkWords 0x34 (payloadWords [0x40, 0x00, 0x9C, 0x40]) =
    [(.along .acceleration .x, 8), (.along .acceleration .y, -25535 / 2048)] := by decide +kernel

/-! ### Witnesses: a state and operands that meet the hypotheses of each obligation that has some -/

theorem witness_StepRunsDecodedInstruction :
    (presented (.command 0x030000000000)).cmd = .command 0x030000000000 :: [] ∧
      decode (.command 0x030000000000) = .ok .crcGet ∧ WellFormed .crcGet = true := ⟨rfl, rfl, rfl⟩
theorem witness_IdleStepHoldsState : State.reset.cmd = [] := rfl
/-- Bytes that are no frame, and none at all. -/
theorem witness_StepReceivesInboundBytes : (presented (.inbound [0x50, 0x03])).cmd = .inbound [0x50, 0x03] :: [] ∧
    decode (.inbound [0x50, 0x03]) = .error .length ∧ (presented (.inbound [])).cmd = .inbound [] :: [] := ⟨rfl, rfl, rfl⟩
/-- A wrong length with a right function code, and a wrong function code at the right length. -/
theorem witness_OtherOutboundBytesDoNothing :
    (presented (.outbound [0x50, 0x03])).cmd = .outbound [0x50, 0x03] :: [] ∧ [0x50, (0x03 : Byte)].length ≠ 8 ∧
      [0x50, 0x10, 0x00, 0x34, 0x00, 0x13, 0x48, (0x48 : Byte)][1]? ≠ some 0x03 ∧
      [0x50, 0x10, 0x00, 0x34, 0x00, 0x13, 0x48, (0x48 : Byte)][1]? ≠ some 0x06 := ⟨rfl, by decide, by decide, by decide⟩
theorem witness_EveryPacketCompletes :
    (presented (.command 0xFF0000000000)).cmd = .command 0xFF0000000000 :: [] ∧
      (presented (.outbound [0x50])).cmd = .outbound [0x50] :: [] ∧
      (presented (.inbound [0x50, 0x83, 0x02])).cmd = .inbound [0x50, 0x83, 0x02] :: [] := ⟨rfl, rfl, rfl⟩
theorem witness_DecodeEncodeAgree : WellFormed (.reserved 0xFF) = true ∧ WellFormed (.readRsp 0xFF [0, 0] 0xFFFF) = true ∧
    WellFormed (.buildRead 0xFF 0xFFFF 0xFFFF) = true := by decide
/-- F1 with the parameter true; F5, of odd length, with it false, and refused with it true. -/
theorem witness_ResponseFormatFollowsOddLenReject :
    decodeResponse true [0x50, 0x03, 0x00, 0x71, 0x21] = .ok (.readRsp 0x50 [] 0x7121) ∧
      decodeResponse false [0x50, 0x03, 0x03, 0x01, 0x02, 0x03, 0x58, 0xAE] = .ok (.readRsp 0x50 [0x01, 0x02, 0x03] 0x58AE) ∧
      decodeResponse true [0x50, 0x03, 0x03, 0x01, 0x02, 0x03, 0x58, 0xAE] = .error .oddLength := ⟨by rfl, by rfl, by rfl⟩
theorem witness_DecodeYieldsWellFormed : decode (.command 0x09AABBCCDDEE) = .ok (.reserved 0x09) := by rfl
theorem witness_FrameEncodeDecodeAgree :
    decode (.outbound [0x50, 0x06, 0x00, 0x1A, 0x00, 0x51, 0x64, 0x70]) = .ok (.writeReq 0x50 0x1A 0x51) ∧
    decode (.inbound [0x50, 0x03, 0x00, 0x71, 0x21]) = .ok (.readRsp 0x50 [] 0x7121) := ⟨by rfl, by rfl⟩
/-- For each `Selects`, a word of that op whose other fields are all ones. -/
theorem witness_Selects :
    (0x01FFFFFFFFFF : CmdWord).extractLsb' 40 8 = 0x01 ∧ (0x02FFFFFFFFFF : CmdWord).extractLsb' 40 8 = 0x02 ∧
      (0x03FFFFFFFFFF : CmdWord).extractLsb' 40 8 = 0x03 ∧ (0x04FFFFFFFFFF : CmdWord).extractLsb' 40 8 = 0x04 ∧
      (0x05FFFFFFFFFF : CmdWord).extractLsb' 40 8 = 0x05 ∧ (0x06FFFFFFFFFF : CmdWord).extractLsb' 40 8 = 0x06 ∧
      (0x07FFFFFFFFFF : CmdWord).extractLsb' 40 8 = 0x07 ∧ (0x08FFFFFFFFFF : CmdWord).extractLsb' 40 8 = 0x08 ∧
      (0xFFFFFFFFFFFF : CmdWord).extractLsb' 40 8 = 0xFF := by decide
theorem witness_OneByteErrorsChangeCrc : (0x48 : Byte) ≠ 0x49 := by decide
theorem witness_ReadAllBuildsPollRequest : State.reset.expaddr = 0x50 := rfl
theorem witness_EngineAssemblerParserIndependent :
    (∃ d r v, Instr.buildWrite 0x50 0x1A 0x51 = .buildWrite d r v) ∧ (∃ b, Instr.crcByte 0x01 = .crcByte b) ∧
      (∃ b, Instr.rxByte 0x50 = .rxByte b) ∧ ∃ d r v, Instr.buildRead 0x50 0x34 19 = .buildRead d r v :=
  ⟨⟨_, _, _, rfl⟩, ⟨_, rfl⟩, ⟨_, rfl⟩, ⟨_, _, _, rfl⟩⟩
theorem witness_ScanWaitsBelowFiveBytes : (buffered [0x01, 0x02, 0x03, 0x04]).rxbuf.length < 5 := by decide
theorem witness_ScanDropsAddressMismatch :
    (buffered [0x51, 0x06, 0x03, 0x00, 0x00]).rxbuf = 0x51 :: [0x06, 0x03, 0x00, 0x00] ∧
      5 ≤ (buffered [0x51, 0x06, 0x03, 0x00, 0x00]).rxbuf.length ∧ (0x51 : Byte) ≠ State.reset.expaddr := by decide
theorem witness_ScanDropsFunctionMismatch :
    (buffered [0x50, 0x06, 0x03, 0x00, 0x00]).rxbuf = State.reset.expaddr :: 0x06 :: [0x03, 0x00, 0x00] ∧
      5 ≤ (buffered [0x50, 0x06, 0x03, 0x00, 0x00]).rxbuf.length ∧ (0x06 : Byte) ≠ 0x03 := by decide
theorem witness_ScanDropsOddLength :
    (buffered [0x50, 0x03, 0xFF, 0x00, 0x00]).rxbuf = State.reset.expaddr :: 0x03 :: 0xFF :: [0x00, 0x00] ∧
      5 ≤ (buffered [0x50, 0x03, 0xFF, 0x00, 0x00]).rxbuf.length ∧ (0xFF : Byte).toNat % 2 = 1 := by decide
theorem witness_ScanWaitsForWholeFrame :
    (buffered [0x50, 0x03, 0xFE, 0x00, 0x00]).rxbuf = State.reset.expaddr :: 0x03 :: 0xFE :: [0x00, 0x00] ∧
      (0xFE : Byte).toNat % 2 = 0 ∧ (buffered [0x50, 0x03, 0xFE, 0x00, 0x00]).rxbuf.length < (0xFE : Byte).toNat + 5 := by
  decide
/-- F1 and F2 with a byte behind. -/
theorem witness_ScanDeliversMatch :
    (buffered [0x50, 0x03, 0x00, 0x71, 0x21]).rxbuf = ([0x50, 0x03, 0x00] ++ []) ++
      [(crc16 ([0x50, 0x03, 0x00] ++ [])).extractLsb' 8 8, (crc16 ([0x50, 0x03, 0x00] ++ [])).extractLsb' 0 8] ++ [] ∧
      (buffered [0x50, 0x03, 0x02, 0x40, 0x00, 0x74, 0x48, 0xAA]).rxbuf = ([0x50, 0x03, 0x02] ++ [0x40, 0x00]) ++
        [(crc16 ([0x50, 0x03, 0x02] ++ [0x40, 0x00])).extractLsb' 8 8,
          (crc16 ([0x50, 0x03, 0x02] ++ [0x40, 0x00])).extractLsb' 0 8] ++ [0xAA] ∧
      (0x02 : Byte).toNat % 2 = 0 ∧ [0x40, (0x00 : Byte)].length = (0x02 : Byte).toNat := by decide
/-- P29 and P28: the trailer exchanged, and only its second byte wrong. -/
theorem witness_ScanDropsCrcMismatch :
    (buffered [0x50, 0x03, 0x00, 0x21, 0x71]).rxbuf = ([0x50, 0x03, 0x00] ++ []) ++ [0x21, 0x71] ++ [] ∧
      ¬ ((0x21 : Byte) = (crc16 ([0x50, 0x03, 0x00] ++ [])).extractLsb' 8 8 ∧
        (0x71 : Byte) = (crc16 ([0x50, 0x03, 0x00] ++ [])).extractLsb' 0 8) ∧
      ¬ ((0x71 : Byte) = (crc16 ([0x50, 0x03, 0x00] ++ [])).extractLsb' 8 8 ∧
        (0x20 : Byte) = (crc16 ([0x50, 0x03, 0x00] ++ [])).extractLsb' 0 8) := by decide
/-- A full buffer, from which the overflow really comes (test_rxByte_at_the_bound). -/
theorem witness_OverflowOnlyWithoutFrame :
    (keyed ([0x50, 0x03, 0xFE] ++ List.replicate 253 0x00)).rxbuf.length ≤ 256 ∧
      .overflow 257 ∈ newEvents (keyed ([0x50, 0x03, 0xFE] ++ List.replicate 253 0x00))
        ((keyed ([0x50, 0x03, 0xFE] ++ List.replicate 253 0x00)).receive 0x00) := by decide +kernel
/-- P21's buffer before its last byte: the longest chain of drops, 253. -/
theorem witness_DropChainAtMost253 :
    (keyed ([0x50, 0x03, 0xFC] ++ List.replicate 253 0xAA)).rxbuf.length ≤ 256 ∧
      (newEvents (keyed ([0x50, 0x03, 0xFC] ++ List.replicate 253 0xAA))
        ((keyed ([0x50, 0x03, 0xFC] ++ List.replicate 253 0xAA)).receive 0xAA)).countP Event.isDrop = 253 := by
  decide +kernel
theorem witness_FrameKeyIsLastregAtMatch :
    .frame (some 0x34) [] ∈ newEvents (keyed [0x50, 0x03, 0x00, 0x71]) ((keyed [0x50, 0x03, 0x00, 0x71]).receive 0x21) := by
  decide
/-- Both forms of what was lost: nothing, and a cleared buffer. -/
theorem witness_RxByteAccountsForEveryByte :
    (∀ e ∈ newEvents (keyed [0x50, 0x03, 0x00, 0x71]) ((keyed [0x50, 0x03, 0x00, 0x71]).receive 0x21),
      e.isOverflow = false) ∧
      newEvents (keyed ([0x50, 0x03, 0xFE] ++ List.replicate 253 0x00))
        ((keyed ([0x50, 0x03, 0xFE] ++ List.replicate 253 0x00)).receive 0x00) = [.overflow 257] := by decide +kernel
theorem witness_NoKeylessFrameAfterBuildRead :
    (keyed []).lastreg ≠ none ∧
      step { keyed [0x50, 0x03, 0x00, 0x71] with cmd := [.command 0x062100000000] } =
        .next { keyed [] with evt := [.frame (some 0x34) []] } := ⟨by decide, by rfl⟩
/-- The shortest and the longest payload. -/
theorem witness_ValidResponseIsDelivered :
    State.reset.rxbuf = [] ∧ ([] : List Byte).length % 2 = 0 ∧ (List.replicate 252 (0 : Byte)).length % 2 = 0 ∧
      (List.replicate 252 (0 : Byte)).length ≤ 252 := by decide +kernel
theorem witness_ReservedOpRaisesIllegalOp :
    ((0x00 : Byte) = 0x00 ∨ 0x09 ≤ (0x00 : Byte).toNat) ∧ ((0x09 : Byte) = 0x00 ∨ 0x09 ≤ (0x09 : Byte).toNat) ∧
      ((0xFF : Byte) = 0x00 ∨ 0x09 ≤ (0xFF : Byte).toNat) := by decide
theorem witness_StepKeepsInv : Inv (presented (.command 0x000000000000)) ∧
    step (presented (.command 0x000000000000)) = .next { State.reset with evt := [.illegalOp 0x00] } :=
  ⟨⟨by decide, by simp [presented, State.reset], rfl⟩, by rfl⟩
/-- For each clause, an instruction that does change what the clause speaks of. -/
theorem witness_OnlyNamedInstructionsWrite :
    after (exec (.crcByte 0x01) State.reset) (fun t => t.crchi != 0xFF && t.crclo != 0xFF) = true ∧
      after (exec (.setAddr 0x51) State.reset) (fun t => t.expaddr != 0x50) = true ∧
      after (exec (.buildRead 0x50 0x34 19) State.reset) (fun t => t.lastreg != none && t.tx != []) = true ∧
      after (exec (.readReq 0x50 0x34 19) State.reset) (fun t => t.lastreg != none && t.tx != []) = true ∧
      after (exec (.buildWrite 0x50 0x34 19) State.reset) (fun t => t.tx != []) = true ∧
      after (exec (.writeReq 0x50 0x34 19) State.reset) (fun t => t.tx != []) = true ∧
      after (exec (.rxByte 0x50) State.reset) (fun t => t.rxbuf != []) = true ∧
      after (exec (.readRsp 0x51 [] 0) State.reset) (fun t => t.rxbuf != []) = true ∧
      after (exec .rxReset (buffered [0x50])) (fun t => t.rxbuf != [0x50]) = true := by decide
theorem witness_OutputsOnlyGrow : exec (.buildWrite 0x50 0x1A 0x51) State.reset =
    .next { State.reset with tx := [0x50, 0x06, 0x00, 0x1A, 0x00, 0x51, 0x64, 0x70] } := by rfl
/-- The values on both sides of the named ranges. -/
theorem witness_RegisterMapLookup : lookupRegister 0x33 = (.raw 0x33, 1) ∧ lookupRegister 0x47 = (.raw 0x47, 1) := by
  constructor <;> rfl
theorem witness_WalkDeliversEachWord :
    ([0x40, 0x00, 0x9C, 0x40] : List Byte)[2 * 1]? = some 0x9C ∧
      ([0x40, 0x00, 0x9C, 0x40] : List Byte)[2 * 1 + 1]? = some 0x40 := by decide

end Sys2Proof.Tests
end

/-! What one step, one instruction and one received byte can do, said once. -/

namespace Sys2Proof.Machine

open Sys2Proof

/-! The branches of a step (R19, R58). -/

theorem step_of_idle {s : State} (hc : s.cmd = []) : step s = .next s := by
  simp only [step, hc]

theorem step_of_decode_ok {s : State} {p : Packet} {rest : List Packet} {i : Instr} (hc : s.cmd = p :: rest)
    (hd : decode p = .ok i) : step s = exec i { s with cmd := rest } := by
  simp only [step, hc, hd]

theorem step_of_decode_error {s : State} {p : Packet} {rest : List Packet} {e : DecodeError} (hc : s.cmd = p :: rest)
    (hd : decode p = .error e) : step s = .next (State.takeNoise p { s with cmd := rest }) := by
  simp only [step, hc, hd]

/-- Settles O2: a packet that decodes is run by exec alone, with nothing around it (R19, R41). -/
theorem stepRunsDecodedInstruction : Obligations.StepRunsDecodedInstruction :=
  fun _ _ _ _ hc hd _ => step_of_decode_ok hc hd

/-- Settles O3: the branch of the step on an empty CMD (R19, R184). -/
theorem idleStepHoldsState : Obligations.IdleStepHoldsState := fun _ hc => step_of_idle hc

/-- A step idles, runs the instruction at the head of CMD, or takes a wire packet that is no frame (log entry 5). -/
theorem step_cases {s t : State} (h : step s = .next t) :
    (s.cmd = [] ∧ t = s) ∨
      ∃ p rest, s.cmd = p :: rest ∧
        ((∃ i, decode p = .ok i ∧ exec i { s with cmd := rest } = .next t) ∨
          ∃ e, decode p = .error e ∧ t = State.takeNoise p { s with cmd := rest }) := by
  cases hc : s.cmd with
  | nil =>
    rw [step_of_idle hc] at h
    cases h
    exact .inl ⟨rfl, rfl⟩
  | cons p rest =>
    refine .inr ⟨p, rest, rfl, ?_⟩
    cases hd : decode p with
    | ok i => exact .inl ⟨i, rfl, by rw [← h, step_of_decode_ok hc hd]⟩
    | error e =>
      rw [step_of_decode_error hc hd] at h
      cases h
      exact .inr ⟨e, rfl, rfl⟩

/-- What an instruction does, in the seven kinds of effect the machine has: both accumulators written, one event, a read
request, a write request, bytes received, the buffer cleared, EXPADDR written. -/
theorem exec_cases {i : Instr} {s t : State} (h : exec i s = .next t) :
    (∃ acc, t = s.setCrc acc ∧
      ((i = .crcClr ∧ acc = (0xFF, 0xFF)) ∨ ∃ b, i = .crcByte b ∧ acc = crcStep (s.crchi, s.crclo) b)) ∨
    (∃ e, t = s.emit e ∧
      ((i = .crcGet ∧ e = .crcVal (join s.crchi s.crclo)) ∨ ∃ op, i = .reserved op ∧ e = .illegalOp op)) ∨
    (∃ d r n, t = s.buildReadRequest d r n ∧ (i = .buildRead d r n ∨ i = .readReq d r n)) ∨
    (∃ d r v, t = s.buildWriteRequest d r v ∧ (i = .buildWrite d r v ∨ i = .writeReq d r v)) ∨
    (∃ bytes, t = s.receiveAll bytes ∧
      ((∃ b, i = .rxByte b ∧ bytes = [b]) ∨ ∃ a p c, i = .readRsp a p c ∧ bytes = responseFrame a p c)) ∨
    (i = .rxReset ∧ t = s.rxClear) ∨
    ∃ a, i = .setAddr a ∧ t = s.setExpaddr a := by
  cases i with
  | crcClr => cases h; exact .inl ⟨_, rfl, .inl ⟨rfl, rfl⟩⟩
  | crcByte b => cases h; exact .inl ⟨_, rfl, .inr ⟨b, rfl, rfl⟩⟩
  | crcGet => cases h; exact .inr (.inl ⟨_, rfl, .inl ⟨rfl, rfl⟩⟩)
  | reserved op => cases h; exact .inr (.inl ⟨_, rfl, .inr ⟨op, rfl, rfl⟩⟩)
  | buildRead d r n => cases h; exact .inr (.inr (.inl ⟨d, r, n, rfl, .inl rfl⟩))
  | readReq d r n => cases h; exact .inr (.inr (.inl ⟨d, r, n, rfl, .inr rfl⟩))
  | buildWrite d r v => cases h; exact .inr (.inr (.inr (.inl ⟨d, r, v, rfl, .inl rfl⟩)))
  | writeReq d r v => cases h; exact .inr (.inr (.inr (.inl ⟨d, r, v, rfl, .inr rfl⟩)))
  | rxByte b => cases h; exact .inr (.inr (.inr (.inr (.inl ⟨[b], rfl, .inl ⟨b, rfl, rfl⟩⟩))))
  | readRsp a p c => cases h; exact .inr (.inr (.inr (.inr (.inl ⟨_, rfl, .inr ⟨a, p, c, rfl, rfl⟩⟩))))
  | rxReset => cases h; exact .inr (.inr (.inr (.inr (.inr (.inl ⟨rfl, rfl⟩)))))
  | setAddr a => cases h; exact .inr (.inr (.inr (.inr (.inr (.inr ⟨a, rfl, rfl⟩)))))

theorem exec_rxByte (b : Byte) (s : State) : exec (.rxByte b) s = .next (s.receive b) := rfl

/-! The frame of the receiving operations (R120): RXBUF changes, EVT grows, every other field stays. -/

theorem receive_frame (s : State) (b : Byte) :
    ∃ buf es, s.receive b = { s with rxbuf := buf, evt := s.evt ++ es } := by
  obtain ⟨n, es, hscan⟩ := scan_frame (s.rxAppend b)
  obtain ⟨-, hg⟩ | ⟨-, hg⟩ := guard_cases (s.rxAppend b).scan
  · exact ⟨[], es ++ [.overflow (s.rxAppend b).scan.rxbuf.length], by
      rw [State.receive, hg, hscan]
      simp⟩
  · exact ⟨(s.rxAppend b).rxbuf.drop n, es, by rw [State.receive, hg, hscan]; rfl⟩

theorem receiveAll_frame (s : State) (bytes : List Byte) :
    ∃ buf es, s.receiveAll bytes = { s with rxbuf := buf, evt := s.evt ++ es } := by
  induction bytes generalizing s with
  | nil => exact ⟨s.rxbuf, [], by simp⟩
  | cons b bytes ih =>
    obtain ⟨buf, es, h⟩ := receive_frame s b
    obtain ⟨buf', es', h'⟩ := ih (s.receive b)
    exact ⟨buf', es ++ es', by rw [State.receiveAll_cons, h', h]; simp⟩

end Sys2Proof.Machine

/-! The machine invariant (R17, R18, R54): each effect of the machine keeps it, so every step does. -/

namespace Sys2Proof.Machine

open Sys2Proof

/-- A command word that selects RESERVED has a reserved code (R59). -/
theorem decodeCommand_reserved {w : CmdWord} {op : Byte} (h : decodeCommand w = .reserved op) :
    reservedOp op = true := by
  simp only [decodeCommand] at h
  split_ifs at h with h1 h2 h3 h4 h5 h6 h7 h8
  cases h
  simp only [reservedOp, Bool.or_eq_true, beq_iff_eq, decide_eq_true_eq]
  bv_omega

/-- Only a command word decodes to RESERVED, and only one of a reserved code (R57, R59). -/
theorem decode_reserved {p : Packet} {op : Byte} (h : decode p = .ok (.reserved op)) : reservedOp op = true := by
  cases p with
  | command w => exact decodeCommand_reserved (Except.ok.inj h)
  | outbound bytes =>
    obtain ⟨a, f, rh, rl, vh, vl, ch, cl, -, ⟨-, hi⟩ | ⟨-, hi⟩⟩ := decodeRequest_cases h
    · cases hi
    · cases hi
  | inbound bytes =>
    obtain ⟨a, n, rest, ch, cl, -, -, -, hi⟩ := decodeResponse_cases h
    cases hi

/-! A buffer that took one byte past its bound holds no frame of more than 252 payload bytes (R133), so everything the scan
delivers from it is legal. -/

theorem legalEvent_of_accept {s : State} {n : Byte} (hlen : s.rxbuf.length ≤ 257) (h : s.verdict = .accept n) :
    LegalEvent (.frame s.lastreg (responsePayload s.rxbuf n)) := by
  obtain ⟨-, heven, hfit, -⟩ := headTest_accept h
  have hn : n.toNat % 2 = 0 := heven rfl
  simp only [responseLength, Config.rspOverhead] at hfit
  have hpay : (responsePayload s.rxbuf n).length = n.toNat := by
    simp only [responsePayload, List.length_take, List.length_drop]
    omega
  simp only [LegalEvent, hpay]
  omega

theorem legalEvents_scanTurn {s t : State} (ht : s.scanTurn = some t) (hlen : s.rxbuf.length ≤ 257)
    (hevt : ∀ e ∈ s.evt, LegalEvent e) : ∀ e ∈ t.evt, LegalEvent e := by
  obtain ⟨c, b, -, rfl⟩ | ⟨n, hv, rfl⟩ := scanTurn_cases ht
  · simpa [LegalEvent, or_imp, forall_and] using hevt
  · simpa [or_imp, forall_and, legalEvent_of_accept hlen hv] using hevt

theorem legalEvents_scan (s : State) : s.rxbuf.length ≤ 257 → (∀ e ∈ s.evt, LegalEvent e) →
    ∀ e ∈ s.scan.evt, LegalEvent e := by
  refine scan_induction
    (P := fun s u => s.rxbuf.length ≤ 257 → (∀ e ∈ s.evt, LegalEvent e) → ∀ e ∈ u.evt, LegalEvent e)
    (fun _ _ _ hevt => hevt) (fun s t ht ih hlen hevt => ?_) s
  have hshort := scanTurn_shortens ht
  exact ih (by omega) (legalEvents_scanTurn ht hlen hevt)

/-! One rule for each effect. -/

theorem Inv.emit {s : State} {e : Event} (hs : Inv s) (he : LegalEvent e) : Inv (s.emit e) := by
  obtain ⟨hlen, hevt, htx⟩ := hs
  exact ⟨hlen, by simpa [or_imp, forall_and, he] using hevt, htx⟩

theorem Inv.send {s : State} {bytes : List Byte} (hs : Inv s) (hb : bytes.length % 8 = 0) : Inv (s.send bytes) := by
  obtain ⟨hlen, hevt, htx⟩ := hs
  refine ⟨hlen, hevt, ?_⟩
  rw [State.send_tx, List.length_append]
  omega

theorem Inv.rxClear {s : State} (hs : Inv s) : Inv s.rxClear := ⟨by simp, hs.2⟩

theorem Inv.receive {s : State} (hs : Inv s) (b : Byte) : Inv (s.receive b) := by
  obtain ⟨hlen, hevt, htx⟩ := hs
  have hle : (s.rxAppend b).rxbuf.length ≤ 257 := by
    rw [State.rxAppend_rxbuf, List.length_append]
    exact Nat.add_le_add_right hlen 1
  have hlegal := legalEvents_scan (s.rxAppend b) hle hevt
  obtain ⟨n, es, hscan⟩ := scan_frame (s.rxAppend b)
  have hscanLen : (s.rxAppend b).scan.rxbuf.length ≤ 257 := by
    rw [hscan, List.length_drop]
    omega
  have hscanTx : (s.rxAppend b).scan.tx.length % 8 = 0 := by rw [hscan]; exact htx
  rw [State.receive]
  obtain ⟨hover, hg⟩ | ⟨hin, hg⟩ := guard_cases (s.rxAppend b).scan
  · have h257 : (s.rxAppend b).scan.rxbuf.length = 257 := by omega
    rw [hg, h257]
    exact ⟨by simp, by simpa [LegalEvent, or_imp, forall_and] using hlegal, hscanTx⟩
  · rw [hg]
    exact ⟨hin, hlegal, hscanTx⟩

theorem Inv.receiveAll {s : State} (hs : Inv s) (bytes : List Byte) : Inv (s.receiveAll bytes) := by
  induction bytes generalizing s with
  | nil => exact hs
  | cons b bytes ih => exact ih (hs.receive b)

theorem Inv.takeNoise {s : State} (hs : Inv s) (p : Packet) : Inv (s.takeNoise p) := by
  cases p with
  | command _ => exact hs
  | outbound _ => exact hs
  | inbound bytes => exact hs.receiveAll bytes

/-- Every instruction the decoder can yield keeps the invariant: for RESERVED the code matters, for no other operand. -/
theorem Inv.exec {i : Instr} {s t : State} (hs : Inv s) (hi : ∀ op, i = .reserved op → reservedOp op = true)
    (h : exec i s = .next t) : Inv t := by
  obtain ⟨acc, rfl, -⟩ | ⟨e, rfl, ⟨-, rfl⟩ | ⟨op, rfl, rfl⟩⟩ | ⟨d, r, n, rfl, -⟩ | ⟨d, r, v, rfl, -⟩ |
    ⟨bytes, rfl, -⟩ | ⟨-, rfl⟩ | ⟨a, -, rfl⟩ := exec_cases h
  · exact hs
  · exact hs.emit trivial
  · exact hs.emit (by simpa [LegalEvent, reservedOp] using hi op rfl)
  · exact hs.send (by simp : (buildFrame d Config.funcRead r n).length % 8 = 0)
  · exact hs.send (by simp : (buildFrame d Config.funcWrite r v).length % 8 = 0)
  · exact hs.receiveAll bytes
  · exact hs.rxClear
  · exact hs

/-- Settles O46: a step idles, runs a decoded instruction or receives noise, and each keeps the invariant. -/
theorem stepKeepsInv : Obligations.StepKeepsInv := by
  intro s t hs h
  obtain ⟨-, rfl⟩ | ⟨p, rest, -, ⟨i, hd, hx⟩ | ⟨e, -, rfl⟩⟩ := step_cases h
  · exact hs
  · have hs' : Inv { s with cmd := rest } := hs
    exact hs'.exec (fun op hop => decode_reserved (hop ▸ hd)) hx
  · exact Inv.takeNoise (s := { s with cmd := rest }) hs p

end Sys2Proof.Machine

/-! Which parts of the state the operations keep apart (R10 to R22, R106, R219): what the parser does not look at, and who
writes what. -/

namespace Sys2Proof.Machine

open Sys2Proof

/-- A relation between states that the parser cannot tell apart, and that every primitive of the parser keeps: both have the
same EXPADDR and RXBUF, which is all the scan and the guard decide on (R121, R130). -/
structure ParserSim (R : State → State → Prop) : Prop where
  expaddr : ∀ {s u}, R s u → u.expaddr = s.expaddr
  rxbuf : ∀ {s u}, R s u → u.rxbuf = s.rxbuf
  rxAppend : ∀ {s u} (b : Byte), R s u → R (s.rxAppend b) (u.rxAppend b)
  takeCondition : ∀ {s u} (c : Condition), R s u → R (s.takeCondition c) (u.takeCondition c)
  acceptFrame : ∀ {s u} (n : Byte), R s u → R (s.acceptFrame n) (u.acceptFrame n)

section

variable {R : State → State → Prop} (hR : ParserSim R)

include hR

theorem ParserSim.verdict {s u : State} (h : R s u) : u.verdict = s.verdict := by
  rw [State.verdict, State.verdict, hR.expaddr h, hR.rxbuf h]

/-- If one of two related states takes a turn, so does the other, and the results are related. -/
theorem ParserSim.scanTurn {s u t : State} (h : R s u) (ht : s.scanTurn = some t) : ∃ v, u.scanTurn = some v ∧ R t v := by
  obtain ⟨c, b, hv, rfl⟩ | ⟨n, hv, rfl⟩ := scanTurn_cases ht
  · exact ⟨u.takeCondition (.mismatch c b), by simp only [State.scanTurn, hR.verdict h, hv],
      hR.takeCondition (.mismatch c b) h⟩
  · exact ⟨u.acceptFrame n, by simp only [State.scanTurn, hR.verdict h, hv], hR.acceptFrame n h⟩

theorem ParserSim.scan (s : State) : ∀ u, R s u → R s.scan u.scan := by
  refine scan_induction (P := fun s s' => ∀ u, R s u → R s' u.scan) (fun s hs u h => ?_) (fun s t ht ih u h => ?_) s
  · have hu : u.scanTurn = none := by rwa [scanTurn_none, hR.verdict h, ← scanTurn_none]
    rwa [scan_eq, hu]
  · obtain ⟨v, hv, hRv⟩ := hR.scanTurn h ht
    rw [scan_eq u, hv]
    exact ih v hRv

theorem ParserSim.guard {s u : State} (h : R s u) : R s.guard u.guard := by
  rw [State.guard, State.guard, hR.rxbuf h]
  split
  · exact hR.takeCondition _ h
  · exact h

theorem ParserSim.receive {s u : State} (b : Byte) (h : R s u) : R (s.receive b) (u.receive b) :=
  hR.guard (hR.scan _ _ (hR.rxAppend b h))

end

/-- A change of the accumulators and of TX from their own old values: all that BUILD_WRITE, CRC_CLR and CRC_BYTE do. -/
def State.updateOutsideParser (f : Byte × Byte → Byte × Byte) (g : List Byte → List Byte) (s : State) : State :=
  { s with crchi := (f (s.crchi, s.crclo)).1, crclo := (f (s.crchi, s.crclo)).2, tx := g s.tx }

theorem parserSim_updateOutsideParser (f : Byte × Byte → Byte × Byte) (g : List Byte → List Byte) :
    ParserSim fun s u => u = s.updateOutsideParser f g where
  expaddr := by rintro s _ rfl; rfl
  rxbuf := by rintro s _ rfl; rfl
  rxAppend := by rintro s _ b rfl; rfl
  takeCondition := by rintro s _ (_ | _ | _) rfl <;> rfl
  acceptFrame := by rintro s _ n rfl; rfl

/-- The parser neither reads nor writes the accumulators and TX (R22, R106). -/
theorem receive_updateOutsideParser (f : Byte × Byte → Byte × Byte) (g : List Byte → List Byte) (s : State) (b : Byte) :
    (s.updateOutsideParser f g).receive b = (s.receive b).updateOutsideParser f g :=
  (parserSim_updateOutsideParser f g).receive b rfl

/-- What the parser decides does not depend on LASTREG or on the outputs (R121): equal EXPADDR and RXBUF stay equal. -/
theorem parserSim_expaddr_rxbuf : ParserSim fun s u => u.expaddr = s.expaddr ∧ u.rxbuf = s.rxbuf where
  expaddr h := h.1
  rxbuf h := h.2
  rxAppend b h := ⟨h.1, congrArg (· ++ [b]) h.2⟩
  takeCondition c h := by
    cases c with
    | mismatch _ _ => exact ⟨h.1, congrArg (·.drop 1) h.2⟩
    | overflow _ => exact ⟨h.1, rfl⟩
    | illegalOp _ => exact h
  acceptFrame n h := ⟨h.1, congrArg (·.drop (responseLength n)) h.2⟩

/-- Settles O23: the three operations are changes outside the parser, which RX_BYTE passes through; CRC_BYTE and the builders
write different fields; BUILD_READ leaves EXPADDR and RXBUF, on which alone the buffer after an RX_BYTE depends. -/
theorem engineAssemblerParserIndependent : Obligations.EngineAssemblerParserIndependent := by
  refine ⟨?_, ?_, ?_⟩
  · rintro i j s hi ⟨b, rfl⟩
    obtain ⟨f, g, hx⟩ : ∃ f g, ∀ u, exec i u = .next (u.updateOutsideParser f g) := by
      obtain ⟨d, r, v, rfl⟩ | rfl | ⟨c, rfl⟩ := hi
      · exact ⟨id, (· ++ buildFrame d Config.funcWrite r v), fun _ => rfl⟩
      · exact ⟨fun _ => (0xFF, 0xFF), id, fun _ => rfl⟩
      · exact ⟨(crcStep · c), id, fun _ => rfl⟩
    simp only [runOps, hx, exec_rxByte, receive_updateOutsideParser]
  · rintro b j s (⟨d, r, v, rfl⟩ | ⟨d, r, v, rfl⟩)
    · rfl
    · rfl
  · intro d b r v s
    exact ⟨_, _, rfl, rfl, (parserSim_expaddr_rxbuf.receive b (s := s) (u := s.buildReadRequest d r v) ⟨rfl, rfl⟩).2⟩

/-- Settles O48: by the seven kinds of effect an instruction can have, each with the fields it leaves alone. -/
theorem onlyNamedInstructionsWrite : Obligations.OnlyNamedInstructionsWrite := by
  intro i s t h
  obtain ⟨acc, rfl, hi⟩ | ⟨e, rfl, -⟩ | ⟨d, r, n, rfl, hi⟩ | ⟨d, r, v, rfl, hi⟩ | ⟨bytes, rfl, hi⟩ | ⟨rfl, rfl⟩ |
    ⟨a, rfl, rfl⟩ := exec_cases h
  · obtain ⟨rfl, -⟩ | ⟨b, rfl, -⟩ := hi
    · simp
    · simp
  · simp
  · obtain rfl | rfl := hi
    · simp
    · simp
  · obtain rfl | rfl := hi
    · simp
    · simp
  · obtain ⟨buf, es, hframe⟩ := receiveAll_frame s bytes
    obtain ⟨b, rfl, -⟩ | ⟨a, p, c, rfl, -⟩ := hi
    · simp [hframe]
    · simp [hframe]
  · simp
  · simp

end Sys2Proof.Machine

/-! The outputs are histories (R18, R41): what one instruction appends to them. -/

namespace Sys2Proof.Machine

open Sys2Proof

/-- Settles O49: of the seven kinds of effect only a request sends, and what it sends is one frame of eight bytes; only an
event and received bytes append to EVT; the other three leave both outputs as they are. -/
theorem outputsOnlyGrow : Obligations.OutputsOnlyGrow := by
  intro i s t h
  obtain ⟨acc, rfl, -⟩ | ⟨e, rfl, -⟩ | ⟨d, r, n, rfl, -⟩ | ⟨d, r, v, rfl, -⟩ | ⟨bytes, rfl, -⟩ | ⟨-, rfl⟩ |
    ⟨a, -, rfl⟩ := exec_cases h
  · exact ⟨[], [], by simp⟩
  · exact ⟨[], [e], by simp⟩
  · exact ⟨buildFrame d Config.funcRead r n, [], by simp⟩
  · exact ⟨buildFrame d Config.funcWrite r v, [], by simp⟩
  · obtain ⟨buf, es, hframe⟩ := receiveAll_frame s bytes
    exact ⟨[], es, by simp [hframe]⟩
  · exact ⟨[], [], by simp⟩
  · exact ⟨[], [], by simp⟩

end Sys2Proof.Machine

/-! Command words and packets (R50 to R59): what each decoder makes of what the encoder writes, and of nothing else. -/

namespace Sys2Proof.Machine

open Sys2Proof

/-! The two checks beyond the operands' widths (R51, R59), as propositions. -/

theorem reservedOp_iff {op : Byte} : reservedOp op = true ↔ op = 0 ∨ 9 ≤ op.toNat := by
  simp [reservedOp]

theorem payloadFits_iff {o : Bool} {payload : List Byte} :
    payloadFits o payload = true ↔ payload.length ≤ 255 ∧ (o = true → payload.length % 2 = 0) := by
  cases o with
  | false => simp [payloadFits]
  | true => simp [payloadFits]

/-! Command words (R53, R57, R59). -/

theorem decodeCommand_of_reservedOp {w : CmdWord} (h : reservedOp (fieldOp w) = true) :
    decodeCommand w = .reserved (fieldOp w) := by
  have hne : ∀ op : Byte, reservedOp op = false → fieldOp w ≠ op := by
    rintro op hop rfl
    simp [h] at hop
  simp only [decodeCommand, hne 0x01 rfl, hne 0x02 rfl, hne 0x03 rfl, hne 0x04 rfl, hne 0x05 rfl, hne 0x06 rfl,
    hne 0x07 rfl, hne 0x08 rfl, if_false]

theorem wellFormed_decodeCommand (w : CmdWord) : WellFormed (decodeCommand w) = true := by
  cases hi : decodeCommand w with
  | reserved op => exact decodeCommand_reserved hi
  | readRsp a payload crc =>
    simp only [decodeCommand] at hi
    split_ifs at hi
  | _ => rfl

/-! Requests (R50, R55). -/

theorem decodeRequest_buildFrame_read (a : Byte) (r n : Half) :
    decodeRequest (buildFrame a Config.funcRead r n) = .ok (.readReq a r n) := by
  simp [decodeRequest, buildFrame]

theorem decodeRequest_buildFrame_write (a : Byte) (r v : Half) :
    decodeRequest (buildFrame a Config.funcWrite r v) = .ok (.writeReq a r v) := by
  simp [decodeRequest, buildFrame]

/-- The frame of fields that were read from six bytes is those bytes and their CRC (R50, R102). -/
theorem buildFrame_join (a f rh rl vh vl : Byte) :
    buildFrame a f (join rh rl) (join vh vl) =
      [a, f, rh, rl, vh, vl] ++ [hi8 (crc16 [a, f, rh, rl, vh, vl]), lo8 (crc16 [a, f, rh, rl, vh, vl])] := by
  simp [buildFrame, crc16First]

/-! Responses (R51). -/

theorem decodeResponse_responseFrame {o : Bool} {payload : List Byte} (h : payloadFits o payload = true) (a : Byte)
    (crc : Half) : decodeResponse o (responseFrame a payload crc) = .ok (.readRsp a payload crc) := by
  obtain ⟨hlen, heven⟩ := payloadFits_iff.mp h
  have hn : payload.length % 256 = payload.length := Nat.mod_eq_of_lt (by omega)
  have hodd : ¬ (o = true ∧ payload.length % 2 = 1) := fun ⟨ho, hmod⟩ => by
    have := heven ho
    omega
  simp [decodeResponse, responseFrame, hn, hodd]

/-- Format RS: the sequences that decode are the frames of the payloads a header can announce (R51, D10). -/
theorem decodeResponse_eq_ok_iff {o : Bool} {bytes : List Byte} {i : Instr} :
    decodeResponse o bytes = .ok i ↔
      ∃ a payload crc, i = .readRsp a payload crc ∧ payloadFits o payload = true ∧
        bytes = responseFrame a payload crc := by
  constructor
  · intro h
    obtain ⟨a, n, rest, ch, cl, rfl, hdrop, heven, rfl⟩ := decodeResponse_cases h
    have hrest : rest = rest.take n.toNat ++ [ch, cl] := by rw [← hdrop, List.take_append_drop]
    have hlen : (rest.take n.toNat).length = n.toNat := by
      have := congrArg List.length hdrop
      simp only [List.length_drop, List.length_cons, List.length_nil] at this
      rw [List.length_take]
      omega
    refine ⟨a, rest.take n.toNat, join ch cl, rfl, payloadFits_iff.mpr ⟨?_, ?_⟩, ?_⟩
    · have := n.isLt
      omega
    · rwa [hlen]
    · simp only [responseFrame, hlen, BitVec.ofNat_toNat, BitVec.setWidth_eq, hi8_join, lo8_join, ← hrest,
        List.cons_append, List.nil_append]
  · rintro ⟨a, payload, crc, rfl, hfits, rfl⟩
    exact decodeResponse_responseFrame hfits a crc

/-! The agreements of decoder and encoder. -/

/-- Settles O6: the fields of a command word are read back as they were written, and so are those of the three frames; the
premise counts for RESERVED, whose code selects no operation, and for READ_RSP, whose header announces its payload. -/
theorem decodeEncodeAgree : Obligations.DecodeEncodeAgree := by
  intro i hwf
  cases i with
  | reserved op =>
    have hop : reservedOp (fieldOp (commandWord op 0 0 0)) = true := by rwa [fieldOp_commandWord]
    rw [encode, decode, decodeCommand_of_reservedOp hop, fieldOp_commandWord]
  | readReq a r n => exact decodeRequest_buildFrame_read a r n
  | writeReq a r v => exact decodeRequest_buildFrame_write a r v
  | readRsp a payload crc => exact decodeResponse_responseFrame hwf a crc
  | _ => simp [encode, decode, decodeCommand]

/-- Settles O7: by the kind of packet; every command word decodes, because decodeCommand is a total function (D17). -/
theorem decodeYieldsWellFormed : Obligations.DecodeYieldsWellFormed := by
  refine ⟨fun p i h => ?_, fun w => ⟨decodeCommand w, rfl⟩⟩
  cases p with
  | command w =>
    cases h
    exact wellFormed_decodeCommand w
  | outbound bytes =>
    obtain ⟨a, f, rh, rl, vh, vl, ch, cl, -, ⟨-, rfl⟩ | ⟨-, rfl⟩⟩ := decodeRequest_cases h
    · rfl
    · rfl
  | inbound bytes =>
    obtain ⟨a, payload, crc, rfl, hfits, -⟩ := decodeResponse_eq_ok_iff.mp h
    exact hfits

/-- Settles O8: a request's fields are its first six bytes, behind which the encoder writes their CRC; a response's operands
are all its bytes. -/
theorem frameEncodeDecodeAgree : Obligations.FrameEncodeDecodeAgree := by
  refine ⟨fun bytes i h => ?_, fun bytes i h => ?_⟩
  · obtain ⟨a, f, rh, rl, vh, vl, ch, cl, rfl, ⟨rfl, rfl⟩ | ⟨rfl, rfl⟩⟩ := decodeRequest_cases h
    · exact ⟨rfl, congrArg Packet.outbound (buildFrame_join a Config.funcRead rh rl vh vl)⟩
    · exact ⟨rfl, congrArg Packet.outbound (buildFrame_join a Config.funcWrite rh rl vh vl)⟩
  · obtain ⟨a, payload, crc, rfl, -, rfl⟩ := decodeResponse_eq_ok_iff.mp h
    rfl

/-- Settles O53: the decoded responses are the frames of the payloads that fit, with that check spelt out. -/
theorem responseFormatFollowsOddLenReject : Obligations.ResponseFormatFollowsOddLenReject := by
  refine ⟨fun o bytes i => ?_, fun _ => rfl⟩
  simp only [decodeResponse_eq_ok_iff, payloadFits_iff, and_assoc]
  rfl

/-- Settles O9: each word is run through the decoder. -/
theorem specWordsDecode : Obligations.SpecWordsDecode :=
  ⟨by decide, by decide, by decide, by decide, by decide, rfl⟩

end Sys2Proof.Machine

/-! Wire packets and reserved codes in the machine (R50, R51, R58, R59). -/

namespace Sys2Proof.Machine

open Sys2Proof

/-- RX_PUSH is the bytes received one after the other, and always completes (R137). -/
theorem runOps_rxPushOps (bytes : List Byte) (s : State) :
    runOps (rxPushOps bytes) s = .next (s.receiveAll bytes) := by
  induction bytes generalizing s with
  | nil => rfl
  | cons b bytes ih => exact ih (s.receive b)

/-- Inbound bytes are received whether they decode or not: the two branches of the step have one effect (R58, R137). -/
theorem step_of_inbound {s : State} {bytes : List Byte} {rest : List Packet} (hc : s.cmd = .inbound bytes :: rest) :
    step s = .next (State.receiveAll { s with cmd := rest } bytes) := by
  cases hd : decode (.inbound bytes) with
  | ok i =>
    obtain ⟨a, payload, crc, rfl, -, rfl⟩ := decodeResponse_eq_ok_iff.mp hd
    rw [step_of_decode_ok hc hd]
    rfl
  | error e => rw [step_of_decode_error hc hd, State.takeNoise_inbound]

/-- Settles O4: a step on inbound bytes and RX_PUSH of them both answer the state after receiving them. -/
theorem stepReceivesInboundBytes : Obligations.StepReceivesInboundBytes :=
  fun s bytes rest hc => ⟨_, step_of_inbound hc, runOps_rxPushOps bytes { s with cmd := rest }⟩

/-- Settles O45: READ_RSP receives its bytes, RX_PUSH does so too, and receiving has the frame of RX_BYTE. -/
theorem responseRowIsPushOfItsBytes : Obligations.ResponseRowIsPushOfItsBytes := by
  intro a payload crc s
  obtain ⟨buf, es, hframe⟩ := receiveAll_frame s (responseFrame a payload crc)
  exact ⟨s.receiveAll (responseFrame a payload crc), es, rfl, runOps_rxPushOps _ s, by rw [hframe]⟩

/-- Settles O43: the effect of the condition is its event alone, and a reserved code takes the last branch of the decoder. -/
theorem reservedOpRaisesIllegalOp : Obligations.ReservedOpRaisesIllegalOp := by
  refine fun op hop => ⟨fun _ => rfl, ?_⟩
  rintro w rfl
  exact congrArg Except.ok (decodeCommand_of_reservedOp (reservedOp_iff.mpr hop))

/-- Settles O44: exec and encode build the frame of a request with the same function. -/
theorem requestRowsEmitTheirFrame : Obligations.RequestRowsEmitTheirFrame :=
  ⟨fun a r n _ => ⟨buildFrame a Config.funcRead r n, rfl, rfl⟩,
    fun a r v _ => ⟨buildFrame a Config.funcWrite r v, rfl, rfl⟩⟩

/-- Settles O54: a request that decodes has eight bytes and one of the two function codes, so these bytes decode to nothing,
and outbound noise does nothing. -/
theorem otherOutboundBytesDoNothing : Obligations.OtherOutboundBytesDoNothing := by
  intro s bytes rest hc hbad
  cases hd : decode (.outbound bytes) with
  | ok i =>
    obtain ⟨a, f, rh, rl, vh, vl, ch, cl, rfl, ⟨rfl, -⟩ | ⟨rfl, -⟩⟩ := decodeRequest_cases hd
    · simp at hbad
    · simp at hbad
  | error e => rw [step_of_decode_error hc hd, State.takeNoise_outbound]

end Sys2Proof.Machine

/-! The CRC arithmetic (40_crc_engine.md R81, R88): exclusive or goes through the halves, the eight steps and the tables. -/

namespace Sys2Proof.Machine

open Sys2Proof

theorem hi8_xor (v w : Half) : hi8 (v ^^^ w) = hi8 v ^^^ hi8 w := BitVec.extractLsb'_xor

theorem lo8_xor (v w : Half) : lo8 (v ^^^ w) = lo8 v ^^^ lo8 w := BitVec.extractLsb'_xor

theorem join_xor (h l h' l' : Byte) : join (h ^^^ h') (l ^^^ l') = join h l ^^^ join h' l' := by
  rw [← join_hi8_lo8 (join h l ^^^ join h' l'), hi8_xor, lo8_xor, hi8_join, hi8_join, lo8_join, lo8_join]

theorem join_zero_xor_setWidth (h l : Byte) : join h 0 ^^^ l.setWidth 16 = join h l := by
  have hl : l.setWidth 16 = join 0 l := by simp [join]
  rw [hl, ← join_xor]
  simp

/-- By bit 0 of each operand: the polynomial enters where one of them is set, and cancels where both are. -/
theorem polyStep_xor (c d : Half) : polyStep (c ^^^ d) = polyStep c ^^^ polyStep d := by
  simp only [polyStep, BitVec.getLsbD_xor, BitVec.ushiftRight_xor_distrib]
  cases c.getLsbD 0 with
  | false =>
    cases d.getLsbD 0 with
    | false => rfl
    | true => exact BitVec.xor_assoc ..
  | true =>
    cases d.getLsbD 0 with
    | false =>
      show (c >>> 1 ^^^ d >>> 1) ^^^ 0xA001#16 = (c >>> 1 ^^^ 0xA001#16) ^^^ d >>> 1
      ac_rfl
    | true =>
      show c >>> 1 ^^^ d >>> 1 = (c >>> 1 ^^^ 0xA001#16) ^^^ (d >>> 1 ^^^ 0xA001#16)
      rw [BitVec.xor_comm (d >>> 1), BitVec.xor_assoc, ← BitVec.xor_assoc 0xA001#16, BitVec.xor_self, BitVec.zero_xor]

theorem repeat_polyStep_xor (n : Nat) (c d : Half) :
    Nat.repeat polyStep n (c ^^^ d) = Nat.repeat polyStep n c ^^^ Nat.repeat polyStep n d := by
  induction n with
  | zero => rfl
  | succ n ih => simp only [Nat.repeat, ih, polyStep_xor]

theorem polyStep8_xor (c d : Half) : polyStep8 (c ^^^ d) = polyStep8 c ^^^ polyStep8 d := repeat_polyStep_xor 8 c d

/-- Low bits that are 0 are shifted out, and the polynomial does not enter. -/
theorem repeat_polyStep_of_low_zero (n : Nat) {c : Half} (h : ∀ i < n, c.getLsbD i = false) :
    Nat.repeat polyStep n c = c >>> n := by
  induction n with
  | zero => simp [Nat.repeat]
  | succ n ih =>
    have hn : (c >>> n).getLsbD 0 = false := by simp [h n (by omega)]
    rw [Nat.repeat, ih fun i hi => h i (by omega), polyStep, hn, BitVec.shiftRight_add]
    rfl

theorem join_zero_shiftRight (h : Byte) : join h 0 >>> 8 = join 0 h := by
  suffices h.setWidth 16 <<< 8 >>> 8 = h.setWidth 16 by simpa [join]
  bv_omega

theorem polyStep8_join_zero (h : Byte) : polyStep8 (join h 0) = join 0 h := by
  rw [polyStep8, repeat_polyStep_of_low_zero 8 fun i hi => by simp [join, hi], join_zero_shiftRight]

theorem tableRule_xor (i j : Byte) : tableRule (i ^^^ j) = tableRule i ^^^ tableRule j := by
  simp only [tableRule, BitVec.setWidth_xor, polyStep8_xor]

/-- The listed tables hold the two bytes of the defining rule: each of the 256 entries is compared with it (R81). -/
theorem tab_eq_tableRule : ∀ i : Byte, tabHi i = lo8 (tableRule i) ∧ tabLo i = hi8 (tableRule i) := by decide

/-- Settles O13: `tableRule` is the rule the statement writes out. -/
theorem tablesFollowDefiningRule : Obligations.TablesFollowDefiningRule := tab_eq_tableRule

theorem tabLo_xor (i j : Byte) : tabLo (i ^^^ j) = tabLo i ^^^ tabLo j := by
  simp only [tab_eq_tableRule, tableRule_xor, hi8_xor]

theorem tabLo_eq_zero : ∀ {i : Byte}, tabLo i = 0 → i = 0 := by decide

/-- No two entries of TABLO are equal (R81): the difference of two is itself an entry, and only entry 0 is 0. -/
theorem tabLo_inj {i j : Byte} : tabLo i = tabLo j ↔ i = j := by
  refine ⟨fun h => ?_, congrArg tabLo⟩
  have hdiff : tabLo (i ^^^ j) = 0 := by rw [tabLo_xor, h, BitVec.xor_self]; rfl
  exact BitVec.xor_eq_zero_iff.mp (tabLo_eq_zero hdiff)

/-! What a crcStep (R85) and a run of them keep apart: the index and the low accumulator, so that with the byte known every
step can be taken back. -/

theorem crcStep_eq_iff {p q : Byte × Byte} {b c : Byte} :
    crcStep p b = crcStep q c ↔ p.1 ^^^ b = q.1 ^^^ c ∧ p.2 = q.2 := by
  simp only [crcStep, Prod.mk.injEq, tabLo_inj]
  constructor
  · rintro ⟨hlo, hindex⟩
    rw [hindex, BitVec.xor_left_inj] at hlo
    exact ⟨hindex, hlo⟩
  · rintro ⟨hindex, hlo⟩
    rw [hindex, hlo]
    exact ⟨rfl, rfl⟩

/-- A byte equal to the high accumulator selects entry 0, so the low accumulator moves up (R89 (d)). -/
theorem crcStep_self (b c : Byte) : crcStep (b, c) b = (c, 0) := by
  simpa [crcStep] using tab_zero

theorem crcStep_eq_mk_zero_iff {p : Byte × Byte} {b c : Byte} : crcStep p b = (c, 0) ↔ p = (b, c) := by
  rw [← crcStep_self b c, crcStep_eq_iff, BitVec.xor_left_inj, Prod.ext_iff]

theorem crcRun_left_inj {p q : Byte × Byte} (s : List Byte) : crcRun p s = crcRun q s ↔ p = q := by
  induction s generalizing p q with
  | nil => rfl
  | cons b s ih => rw [crcRun_cons, crcRun_cons, ih, crcStep_eq_iff, BitVec.xor_left_inj, Prod.ext_iff]

theorem crc16_eq_join_iff {s : List Byte} {h l : Byte} : crc16 s = join h l ↔ crcRun (0xFF, 0xFF) s = (h, l) := by
  rw [crc16, join_inj, Prod.ext_iff]

theorem crc16_eq_crc16_iff {s t : List Byte} :
    crc16 s = crc16 t ↔ crcRun (0xFF, 0xFF) s = crcRun (0xFF, 0xFF) t := crc16_eq_join_iff

theorem crcRun_init (s : List Byte) : crcRun (0xFF, 0xFF) s = (hi8 (crc16 s), lo8 (crc16 s)) := by
  rw [hi8_crc16, lo8_crc16]

end Sys2Proof.Machine

/-! The canonical definition (R87, R88): one byte of it moves the register as crcStep moves the accumulators. -/

namespace Sys2Proof.Machine

open Sys2Proof

/-- The accumulators, high one first, that stand for a canonical register: its two bytes exchanged (R87). -/
def canonAccumulators (reg : Half) : Byte × Byte := (lo8 reg, hi8 reg)

/-- The canonical table step of R87: the high byte comes down unchanged, and the rule's value at the index goes into it. -/
theorem canonStep_eq (reg : Half) (b : Byte) :
    canonStep reg b = join 0 (hi8 reg) ^^^ tableRule (lo8 reg ^^^ b) := by
  have hsplit : reg ^^^ b.setWidth 16 = join (hi8 reg) 0 ^^^ (lo8 reg ^^^ b).setWidth 16 := by
    rw [BitVec.setWidth_xor, ← BitVec.xor_assoc, join_zero_xor_setWidth, join_hi8_lo8]
  rw [canonStep, hsplit, polyStep8_xor, polyStep8_join_zero, tableRule]

theorem crcStep_canonAccumulators (reg : Half) (b : Byte) :
    crcStep (canonAccumulators reg) b = canonAccumulators (canonStep reg b) := by
  obtain ⟨hhi, hlo⟩ := tab_eq_tableRule (lo8 reg ^^^ b)
  simp [crcStep, canonAccumulators, canonStep_eq, hhi, hlo, hi8_xor, lo8_xor]

theorem crcRun_canonAccumulators (reg : Half) (s : List Byte) :
    crcRun (canonAccumulators reg) s = canonAccumulators (s.foldl canonStep reg) :=
  List.foldl_hom canonAccumulators crcStep_canonAccumulators

/-- Settles O16: both registers start with all bits set, and each byte keeps the accumulators the exchanged halves of the
canonical register. -/
theorem crc16IsCanonicalSwapped : Obligations.Crc16IsCanonicalSwapped :=
  fun s => crc16_eq_join_iff.mpr (crcRun_canonAccumulators 0xFFFF s)

end Sys2Proof.Machine

/-! The check value of a sequence (R86, R89). -/

namespace Sys2Proof.Machine

open Sys2Proof

/-- Settles O14: the last byte of a sequence is the last crcStep of its run. -/
theorem crc16FollowsContract : Obligations.Crc16FollowsContract := by
  refine ⟨rfl, fun s b => ?_, fun s => (join_hi8_lo8 (crc16 s)).symm, fun s t => ?_⟩
  · simp only [hi8_crc16, lo8_crc16, crcRun_append, crcRun_cons, crcRun_nil]
    exact ⟨rfl, rfl⟩
  · rw [crc16First, List.take_left]

/-- Settles O17: the accumulators end at 0/0 only from those that hold the two trailer bytes, a step for each. -/
theorem residueZeroIffTrailerMatches : Obligations.ResidueZeroIffTrailerMatches := by
  intro s b1 b2
  calc crc16 (s ++ [b1, b2]) = 0
      ↔ crcRun (0xFF, 0xFF) (s ++ [b1, b2]) = (0, 0) := crc16_eq_join_iff (h := 0) (l := 0)
    _ ↔ crcStep (crcStep (crcRun (0xFF, 0xFF) s) b1) b2 = (0, 0) := by
      rw [crcRun_append, crcRun_cons, crcRun_cons, crcRun_nil]
    _ ↔ crcRun (0xFF, 0xFF) s = (b1, b2) := by rw [crcStep_eq_mk_zero_iff, crcStep_eq_mk_zero_iff]
    _ ↔ b1 = hi8 (crc16 s) ∧ b2 = lo8 (crc16 s) := by
      rw [crcRun_init, Prod.mk.injEq, eq_comm, eq_comm (a := lo8 _)]

/-- Settles O18: the run after the byte and the step on it can both be taken back, so equal CRCs mean equal bytes. -/
theorem oneByteErrorsChangeCrc : Obligations.OneByteErrorsChangeCrc := by
  intro before after b b' hne heq
  rw [crc16_eq_crc16_iff, crcRun_append, crcRun_append, crcRun_cons, crcRun_cons, crcRun_left_inj, crcStep_eq_iff] at heq
  exact hne ((BitVec.xor_right_inj _).mp heq.1)

end Sys2Proof.Machine

/-! The streaming operations (R63, R82 to R84). -/

namespace Sys2Proof.Machine

open Sys2Proof

theorem selects_of_decodeCommand {op : Byte} {f : Byte → Half → Half → Instr}
    (h : ∀ w, fieldOp w = op → decodeCommand w = f (fieldA w) (fieldR w) (fieldV w)) : Selects op f :=
  fun w hw => congrArg Except.ok (h w hw)

/-- Settles O10: exec writes the initial values, and op 0x01 takes the first branch of the decoder. -/
theorem crcClrSetsBothAccumulators : Obligations.CrcClrSetsBothAccumulators :=
  ⟨fun _ => rfl, selects_of_decodeCommand fun w hw => by simp [decodeCommand, hw]⟩

/-- Settles O11: exec is crcStep on the accumulators, and op 0x02 takes the second branch of the decoder. -/
theorem crcByteStepsAccumulators : Obligations.CrcByteStepsAccumulators :=
  ⟨fun _ _ => rfl, selects_of_decodeCommand fun w hw => by simp [decodeCommand, hw]⟩

/-- Settles O12: exec emits the joined accumulators, and op 0x03 takes the third branch of the decoder. -/
theorem crcGetEmitsValue : Obligations.CrcGetEmitsValue :=
  ⟨fun _ => rfl, selects_of_decodeCommand fun w hw => by simp [decodeCommand, hw]⟩

/-- CRC_BYTEs in sequence are one run over their bytes (R89 (c)). -/
theorem runOps_crcByte_append (bytes : List Byte) (ops : List Instr) (s : State) :
    runOps (bytes.map .crcByte ++ ops) s = runOps ops (s.setCrc (crcRun (s.crchi, s.crclo) bytes)) := by
  induction bytes generalizing s with
  | nil => rfl
  | cons b bytes ih => exact ih (s.setCrc (crcStep (s.crchi, s.crclo) b))

theorem runOps_crcGet (s : State) : runOps [.crcGet] s = .next (s.emit (.crcVal (join s.crchi s.crclo))) := rfl

/-- Settles O15: CRC_CLR starts the accumulators where crc16 starts its own, and CRC_GET joins them as crc16 does. -/
theorem crc16OpsEmitCheckValue : Obligations.Crc16OpsEmitCheckValue := by
  intro bytes s
  have hrun : runOps (crc16Ops bytes) s = runOps [.crcGet] (s.setCrc (crcRun (0xFF, 0xFF) bytes)) :=
    runOps_crcByte_append bytes [.crcGet] (s.setCrc (0xFF, 0xFF))
  rw [hrun, crcRun_init, runOps_crcGet, State.setCrc_crchi, State.setCrc_crclo, join_hi8_lo8]
  rfl

end Sys2Proof.Machine

/-! The frame assembler (R63, R100 to R105). -/

namespace Sys2Proof.Machine

open Sys2Proof

theorem exec_buildRead (dev : Byte) (reg count : Half) (s : State) :
    exec (.buildRead dev reg count) s = .next (s.buildReadRequest dev reg count) := rfl

theorem exec_buildWrite (dev : Byte) (reg value : Half) (s : State) :
    exec (.buildWrite dev reg value) s = .next (s.send (buildFrame dev Config.funcWrite reg value)) := rfl

/-- The length argument of R102 takes in the whole body. -/
theorem buildFrame_eq (dev fn : Byte) (reg val : Half) :
    buildFrame dev fn reg val =
      [dev, fn, hi8 reg, lo8 reg, hi8 val, lo8 val] ++
        [hi8 (crc16 [dev, fn, hi8 reg, lo8 reg, hi8 val, lo8 val]),
          lo8 (crc16 [dev, fn, hi8 reg, lo8 reg, hi8 val, lo8 val])] := by
  simp [buildFrame, crc16First]

@[simp] theorem State.send_send (s : State) (x y : List Byte) : (s.send x).send y = s.send (x ++ y) := by
  simp [State.send]

theorem runOps_singleton (i : Instr) (s : State) : runOps [i] s = exec i s := by
  rw [runOps]
  cases exec i s <;> rfl

theorem runOps_cons_of_exec {i : Instr} {s t : State} (h : exec i s = .next t) (ops : List Instr) :
    runOps (i :: ops) s = runOps ops t := by
  rw [runOps, h]

/-- Settles O19: exec sends the frame of function 03 and sets LASTREG, and op 0x04 takes the fourth branch of the
decoder. -/
theorem buildReadEmitsFrame : Obligations.BuildReadEmitsFrame := by
  refine ⟨fun dev reg count s => ?_, selects_of_decodeCommand fun w hw => by simp [decodeCommand, hw]⟩
  rw [exec_buildRead, State.buildReadRequest, buildFrame_eq]
  rfl

/-- Settles O20: exec sends the frame of function 06, and op 0x05 takes the fifth branch of the decoder. -/
theorem buildWriteEmitsFrame : Obligations.BuildWriteEmitsFrame := by
  refine ⟨fun dev reg value s => ?_, selects_of_decodeCommand fun w hw => by simp [decodeCommand, hw]⟩
  rw [exec_buildWrite, buildFrame_eq]
  rfl

/-- The poll request to the reset value of EXPADDR, its trailer computed (R104). -/
theorem buildFrame_pollRequest : buildFrame Config.defaultAddr Config.funcRead Config.readAllReg Config.readAllCount =
    [0x50, 0x03, 0x00, 0x34, 0x00, 0x13, 0x48, 0x48] := by decide

/-- Settles O21: the expansion is the one operation, and its frame to address 0x50 is a computed constant. -/
theorem readAllBuildsPollRequest : Obligations.ReadAllBuildsPollRequest := by
  refine ⟨fun s => runOps_singleton _ s, fun s hs => ?_⟩
  have hframe : buildFrame s.expaddr Config.funcRead Config.readAllReg Config.readAllCount =
      [0x50, 0x03, 0x00, 0x34, 0x00, 0x13, 0x48, 0x48] := by rw [hs, buildFrame_pollRequest]
  rw [readAllOps, runOps_singleton, exec_buildRead, State.buildReadRequest, hframe]
  rfl

/-- Settles O22: each BUILD_WRITE sends its frame and hands on to the next, and sends in a row are one send. -/
theorem writeSeqEmitsThreeFrames : Obligations.WriteSeqEmitsThreeFrames := by
  refine fun reg value s => ⟨?_, by simp⟩
  rw [writeSeqOps, runOps_cons_of_exec (exec_buildWrite ..), runOps_cons_of_exec (exec_buildWrite ..), runOps_singleton,
    exec_buildWrite, State.send_send, State.send_send]
  rfl

end Sys2Proof.Machine

/-! The head tests and the scan, branch by branch (R121 to R129). -/

namespace Sys2Proof.Machine

open Sys2Proof

theorem headTest_of_address_ne (o : Bool) {e h0 : Byte} {rest : List Byte} (hlen : 5 ≤ (h0 :: rest).length) (hne : h0 ≠ e) :
    headTest o e (h0 :: rest) = .mismatch .addrMismatch h0 := by
  obtain _ | ⟨h1, _ | ⟨h2, tail⟩⟩ := rest
  · simp at hlen
  · simp at hlen
  · rw [headTest_eq o e rfl, if_neg (Nat.not_lt.mpr hlen), if_pos hne]

theorem headTest_of_function_ne (o : Bool) {e h1 : Byte} {rest : List Byte} (hlen : 5 ≤ (e :: h1 :: rest).length)
    (hne : h1 ≠ 0x03) : headTest o e (e :: h1 :: rest) = .mismatch .funcMismatch e := by
  obtain _ | ⟨h2, tail⟩ := rest
  · simp at hlen
  · rw [headTest_eq o e rfl, if_neg (Nat.not_lt.mpr hlen), if_neg (not_not_intro rfl), if_pos hne]

theorem headTest_of_odd {e n : Byte} {rest : List Byte} (hlen : 5 ≤ (e :: 0x03 :: n :: rest).length)
    (hodd : n.toNat % 2 = 1) : headTest true e (e :: 0x03 :: n :: rest) = .mismatch .oddLen e := by
  rw [headTest_eq true e rfl, if_neg (Nat.not_lt.mpr hlen), if_neg (not_not_intro rfl), if_neg (not_not_intro rfl),
    if_pos ⟨rfl, hodd⟩]

/-- Behind an accepted header only the length and the trailer are left to test (R126, R127); a buffer of fewer than five bytes
is shorter than any frame. -/
theorem headTest_of_header {o : Bool} {e n : Byte} {buf rest : List Byte} (hbuf : buf = e :: 0x03 :: n :: rest)
    (heven : o = true → n.toNat % 2 = 0) :
    headTest o e buf =
      if buf.length < n.toNat + 5 then .wait
      else if trailerMatches buf (n.toNat + 5) then .accept n
      else .mismatch .crcMismatch e := by
  have hodd : ¬ (o = true ∧ n.toNat % 2 = 1) := fun ⟨ho, hn⟩ => by
    have := heven ho
    omega
  rw [headTest_eq o e hbuf, if_neg (not_not_intro rfl), if_neg (not_not_intro rfl), if_neg hodd]
  by_cases h5 : buf.length < 5
  · rw [if_pos h5, if_pos (by omega)]
  · rw [if_neg h5]

/-- The trailer test on two bytes behind a body looks at nothing behind them (R127). -/
theorem trailerMatches_append (body rest : List Byte) (c1 c2 : Byte) :
    trailerMatches (body ++ [c1, c2] ++ rest) (body.length + 2) = true ↔ c1 = hi8 (crc16 body) ∧ c2 = lo8 (crc16 body) := by
  simp [trailerMatches, crc16First]

/-- On a complete candidate the head test comes down to its two trailer bytes (R127 to R129). -/
theorem headTest_of_candidate {o : Bool} {n : Byte} {payload : List Byte} (e c1 c2 : Byte) (rest : List Byte)
    (heven : o = true → n.toNat % 2 = 0) (hpay : payload.length = n.toNat) :
    headTest o e ([e, 0x03, n] ++ payload ++ [c1, c2] ++ rest) =
      if c1 = hi8 (crc16 ([e, 0x03, n] ++ payload)) ∧ c2 = lo8 (crc16 ([e, 0x03, n] ++ payload)) then .accept n
      else .mismatch .crcMismatch e := by
  have hbody : n.toNat + 5 = ([e, 0x03, n] ++ payload).length + 2 := by simp [hpay]
  have hfit : ¬ ([e, 0x03, n] ++ payload ++ [c1, c2] ++ rest).length < n.toNat + 5 := by simp [hpay]
  rw [headTest_of_header (buf := [e, 0x03, n] ++ payload ++ [c1, c2] ++ rest) rfl heven, if_neg hfit, hbody,
    if_congr (trailerMatches_append ..) rfl rfl]

theorem scan_of_wait {s : State} (h : s.verdict = .wait) : s.scan = s := by
  rw [scan_eq, scanTurn_none.mpr h]

theorem scan_of_mismatch {s : State} {c : DropCause} {b : Byte} {rest : List Byte} (hbuf : s.rxbuf = b :: rest)
    (h : s.verdict = .mismatch c b) : s.scan = State.scan { s with rxbuf := rest, evt := s.evt ++ [.drop c b] } := by
  rw [scan_eq, scanTurn_of_mismatch hbuf h]

theorem scan_of_accept {s : State} {n : Byte} (h : s.verdict = .accept n) : s.scan = (s.acceptFrame n).scan := by
  have hturn : s.scanTurn = some (s.acceptFrame n) := by rw [State.scanTurn, h]
  rw [scan_eq, hturn]

/-- What an accepted candidate delivers and what it leaves (R128). -/
theorem acceptFrame_of_candidate {s : State} {n c1 c2 : Byte} {payload rest : List Byte} (hpay : payload.length = n.toNat)
    (hbuf : s.rxbuf = [s.expaddr, 0x03, n] ++ payload ++ [c1, c2] ++ rest) :
    s.acceptFrame n = { s with rxbuf := rest, evt := s.evt ++ [.frame s.lastreg payload] } := by
  simp [State.acceptFrame, State.emit, State.rxDrop, responsePayload, responseLength, hbuf, ← hpay]

/-- Settles O25: the head tests wait on fewer than five bytes (R122). -/
theorem scanWaitsBelowFiveBytes : Obligations.ScanWaitsBelowFiveBytes :=
  fun s hlen => scan_of_wait (headTest_short Config.oddLenReject s.expaddr hlen)

/-- Settles O26: the second test fails (R123). -/
theorem scanDropsAddressMismatch : Obligations.ScanDropsAddressMismatch := by
  intro s h0 rest hbuf hlen hne
  rw [hbuf] at hlen
  exact scan_of_mismatch hbuf (by rw [State.verdict, hbuf, headTest_of_address_ne _ hlen hne])

/-- Settles O27: the third test fails, and the head byte is EXPADDR (R124). -/
theorem scanDropsFunctionMismatch : Obligations.ScanDropsFunctionMismatch := by
  intro s h1 rest hbuf hlen hne
  rw [hbuf] at hlen
  exact scan_of_mismatch hbuf (by rw [State.verdict, hbuf, headTest_of_function_ne _ hlen hne])

/-- Settles O28: the fourth test fails; without ODD_LEN_REJECT an odd length passes it like an even one (R125, log entry 8). -/
theorem scanDropsOddLength : Obligations.ScanDropsOddLength := by
  refine ⟨fun s n rest hbuf hlen hodd => ?_, fun e n rest _ => headTest_of_header rfl nofun⟩
  rw [hbuf] at hlen
  exact scan_of_mismatch hbuf (by rw [State.verdict, hbuf, headTest_of_odd hlen hodd])

/-- Settles O29: behind an accepted header the length test waits (R126). -/
theorem scanWaitsForWholeFrame : Obligations.ScanWaitsForWholeFrame := by
  intro s n rest hbuf heven hlen
  exact scan_of_wait (by rw [State.verdict, headTest_of_header hbuf fun _ => heven, if_pos hlen])

/-- Settles O30: the head test accepts a candidate with the right trailer, and the whole of it is removed (R128). -/
theorem scanDeliversMatch : Obligations.ScanDeliversMatch := by
  intro s n payload rest heven hpay body hbuf
  have hv : s.verdict = .accept n := by
    rw [State.verdict, hbuf, headTest_of_candidate _ _ _ _ (fun _ => heven) hpay, if_pos ⟨rfl, rfl⟩]
  rw [scan_of_accept hv, acceptFrame_of_candidate hpay hbuf]

/-- Settles O31: the head test of a candidate with a wrong trailer names the head byte, and only that is removed (R129). -/
theorem scanDropsCrcMismatch : Obligations.ScanDropsCrcMismatch := by
  intro s n c1 c2 payload rest heven hpay body hbuf hwrong
  have hv : s.verdict = .mismatch .crcMismatch s.expaddr := by
    rw [State.verdict, hbuf, headTest_of_candidate _ _ _ _ (fun _ => heven) hpay]
    exact if_neg hwrong
  exact scan_of_mismatch hbuf hv

end Sys2Proof.Machine

/-! The buffer at rest (R132): where the parser waits. -/

namespace Sys2Proof.Machine

open Sys2Proof

theorem atRest_iff {e : Byte} {buf : List Byte} : AtRest e buf ↔ buf.length ≤ 256 ∧ headTest true e buf = .wait := by
  constructor
  · rintro ⟨hcap, hshort | ⟨n, h0, h1, h2, heven, hlen⟩⟩
    · exact ⟨hcap, headTest_short true e hshort⟩
    · obtain _ | ⟨b0, _ | ⟨b1, _ | ⟨b2, rest⟩⟩⟩ := buf
      · simp at h0
      · simp at h1
      · simp at h2
      · simp only [List.getElem?_cons_zero, List.getElem?_cons_succ, Option.some.injEq] at h0 h1 h2
        subst h0 h1 h2
        exact ⟨hcap, by rw [headTest_of_header rfl fun _ => heven, if_pos hlen]⟩
  · rintro ⟨hcap, hwait⟩
    obtain hshort | ⟨n, rest, rfl, heven, hlen⟩ := headTest_wait hwait
    · exact ⟨hcap, .inl hshort⟩
    · exact ⟨hcap, .inr ⟨n, rfl, rfl, rfl, heven rfl, hlen⟩⟩

theorem atRest_nil (e : Byte) : AtRest e [] := ⟨by simp, .inl (by simp)⟩

/-- A part of a frame that is not complete is not complete either. -/
theorem AtRest.of_append {e : Byte} {x y : List Byte} (h : AtRest e (x ++ y)) : AtRest e x := by
  have hle : x.length ≤ (x ++ y).length := by simp
  obtain ⟨hcap, hrest⟩ := h
  refine ⟨hle.trans hcap, ?_⟩
  by_cases hx : x.length < 5
  · exact .inl hx
  · obtain hshort | ⟨n, h0, h1, h2, heven, hlen⟩ := hrest
    · exact absurd (hle.trans_lt hshort) hx
    · rw [List.getElem?_append_left (by omega)] at h0 h1 h2
      exact .inr ⟨n, h0, h1, h2, heven, hle.trans_lt hlen⟩

/-- Scan and guard leave a buffer at rest as it is (R132). -/
theorem scan_guard_of_atRest {s : State} (h : AtRest s.expaddr s.rxbuf) : s.scan.guard = s := by
  obtain ⟨hcap, hwait⟩ := atRest_iff.mp h
  rw [scan_of_wait hwait]
  obtain ⟨hover, -⟩ | ⟨-, hg⟩ := guard_cases s
  · omega
  · exact hg

theorem atRest_receive (s : State) (b : Byte) : AtRest (s.receive b).expaddr (s.receive b).rxbuf := by
  rw [State.receive]
  obtain ⟨-, hg⟩ | ⟨hcap, hg⟩ := guard_cases (s.rxAppend b).scan
  · rw [hg]
    exact atRest_nil _
  · rw [hg]
    exact atRest_iff.mpr ⟨hcap, scanTurn_none.mp (scan_waits _)⟩

/-- Settles O33: the scan stops where the head test waits, and the guard clears what is longer than the bound. -/
theorem rxByteLeavesBufferAtRest : Obligations.RxByteLeavesBufferAtRest := fun b s =>
  ⟨s.receive b, exec_rxByte b s, atRest_receive s b, scan_guard_of_atRest (atRest_receive s b)⟩

/-- Bytes that leave the buffer at rest are appended and have no other effect. -/
theorem receiveAll_of_atRest {s : State} {bytes : List Byte} (h : AtRest s.expaddr (s.rxbuf ++ bytes)) :
    s.receiveAll bytes = { s with rxbuf := s.rxbuf ++ bytes } := by
  induction bytes generalizing s with
  | nil => simp
  | cons b bytes ih =>
    rw [List.append_cons] at h
    have hb : s.receive b = s.rxAppend b := scan_guard_of_atRest h.of_append
    rw [State.receiveAll_cons, hb, ih h]
    simp [State.rxAppend]

end Sys2Proof.Machine

/-! Whole operations of the parser (R120, R128, R130, R134 to R137): what one RX_BYTE appends to EVT, and pushes. -/

namespace Sys2Proof.Machine

open Sys2Proof

theorem newEvents_of_evt {s t : State} {es : List Event} (h : t.evt = s.evt ++ es) : newEvents s t = es := by
  rw [newEvents, h, List.drop_left]

/-- The events of a scan in a state whose LASTREG is `key`: a DROP, or a FRAME under that key (R123 to R129). -/
def ScanEvent (key : Option Half) (e : Event) : Prop := e.isDrop = true ∨ ∃ payload, e = .frame key payload

theorem scanTurn_effect {s t : State} (h : s.scanTurn = some t) :
    ∃ n e, t = { s with rxbuf := s.rxbuf.drop n, evt := s.evt ++ [e] } ∧ ScanEvent s.lastreg e := by
  obtain ⟨c, b, -, rfl⟩ | ⟨n, -, rfl⟩ := scanTurn_cases h
  · exact ⟨1, .drop c b, rfl, .inl rfl⟩
  · exact ⟨responseLength n, .frame s.lastreg (responsePayload s.rxbuf n), rfl, .inr ⟨_, rfl⟩⟩

/-- The events of a scan, each of which stands for at least one byte that it removed (R131). -/
theorem scan_events (s : State) :
    ∃ es, s.scan.evt = s.evt ++ es ∧ (∀ e ∈ es, ScanEvent s.lastreg e) ∧
      es.length + s.scan.rxbuf.length ≤ s.rxbuf.length := by
  refine scan_induction (P := fun s u => ∃ es, u.evt = s.evt ++ es ∧ (∀ e ∈ es, ScanEvent s.lastreg e) ∧
    es.length + u.rxbuf.length ≤ s.rxbuf.length) (fun s _ => ⟨[], by simp⟩) ?_ s
  rintro s t ht ⟨es, hevt, hes, hlen⟩
  have hshort := scanTurn_shortens ht
  obtain ⟨n, e, rfl, he⟩ := scanTurn_effect ht
  refine ⟨e :: es, by simpa using hevt, List.forall_mem_cons.mpr ⟨he, hes⟩, ?_⟩
  rw [List.length_cons]
  omega

/-- One RX_BYTE appends the events of its scan and, where the buffer is then over the bound, one OVERFLOW, which reports the
bytes that those events left, and the buffer is empty (R120, R130). -/
theorem receive_events (s : State) (b : Byte) :
    ∃ es last, newEvents s (s.receive b) = es ++ last ∧ (∀ e ∈ es, ScanEvent s.lastreg e) ∧
      (last = [] ∨ ∃ n, last = [.overflow n] ∧ 256 < n ∧ es.length + n ≤ s.rxbuf.length + 1 ∧ (s.receive b).rxbuf = []) := by
  obtain ⟨es, hevt, hes, hlen⟩ := scan_events (s.rxAppend b)
  rw [State.rxAppend_evt] at hevt
  rw [State.rxAppend_rxbuf, List.length_append, List.length_singleton] at hlen
  rw [State.receive]
  obtain ⟨hover, hg⟩ | ⟨-, hg⟩ := guard_cases (s.rxAppend b).scan
  · refine ⟨es, _, newEvents_of_evt ?_, hes, .inr ⟨_, rfl, hover, hlen, by rw [hg]⟩⟩
    rw [hg, hevt, List.append_assoc]
  · exact ⟨es, [], newEvents_of_evt (by rw [hg, hevt, List.append_nil]), hes, .inl rfl⟩

/-- Settles O24: exec is the three phases of R120, and op 0x06 takes the sixth branch of the decoder. -/
theorem rxByteAppendsScansGuards : Obligations.RxByteAppendsScansGuards :=
  ⟨fun _ _ => rfl, selects_of_decodeCommand fun w hw => by simp [decodeCommand, hw]⟩

/-- Settles O32: the frame of RX_BYTE, with the events of the scan and the guard. -/
theorem rxByteFrame : Obligations.RxByteFrame := by
  intro b s
  obtain ⟨buf, all, hframe⟩ := receive_frame s b
  obtain ⟨es, last, hnew, hes, hlast⟩ := receive_events s b
  have hall : all = es ++ last := by rw [← hnew, newEvents_of_evt (by rw [hframe])]
  refine ⟨s.receive b, all, exec_rxByte b s, by rw [hframe], fun e he => ?_⟩
  rw [hall, List.mem_append] at he
  obtain he | he := he
  · obtain hdrop | ⟨payload, rfl⟩ := hes e he
    · exact .inl hdrop
    · exact .inr (.inl rfl)
  · obtain rfl | ⟨n, rfl, -⟩ := hlast
    · cases he
    · rw [List.mem_singleton.mp he]
      exact .inr (.inr rfl)

/-- Settles O35: an OVERFLOW is none of the scan's events; it reports more than 256 of at most 257 bytes, so the scan removed
none and emitted nothing. -/
theorem overflowOnlyWithoutFrame : Obligations.OverflowOnlyWithoutFrame := by
  intro b s n hcap
  refine ⟨s.receive b, exec_rxByte b s, fun hover => ?_⟩
  obtain ⟨es, last, hnew, hes, hlast⟩ := receive_events s b
  have hnot : .overflow n ∉ es := fun hmem => by
    obtain hdrop | ⟨payload, hframe⟩ := hes _ hmem
    · cases hdrop
    · cases hframe
  rw [hnew] at hover ⊢
  obtain rfl | ⟨m, rfl, hm, hlen, hclear⟩ := hlast
  · exact absurd (by simpa using hover) hnot
  · obtain rfl : n = m := by simpa [hnot] using hover
    obtain rfl : es = [] := List.eq_nil_of_length_eq_zero (by omega)
    obtain rfl : n = 257 := by omega
    exact ⟨rfl, hclear, rfl, by simp [Event.isFrame]⟩

/-- Settles O37: LASTREG is outside the frame of RX_BYTE, and each FRAME is an event of the scan. -/
theorem frameKeyIsLastregAtMatch : Obligations.FrameKeyIsLastregAtMatch := by
  intro b s
  obtain ⟨buf, all, hframe⟩ := receive_frame s b
  refine ⟨s.receive b, exec_rxByte b s, by rw [hframe], fun k payload hmem => ?_⟩
  obtain ⟨es, last, hnew, hes, hlast⟩ := receive_events s b
  rw [hnew, List.mem_append] at hmem
  obtain hmem | hmem := hmem
  · obtain hdrop | ⟨payload', heq⟩ := hes _ hmem
    · cases hdrop
    · cases heq
      rfl
  · obtain rfl | ⟨n, rfl, -⟩ := hlast
    · cases hmem
    · simp at hmem

/-- Settles O39: a push is a fold over its bytes, and each chunk has the frame of RX_BYTE. -/
theorem pushIndependentOfChunking : Obligations.PushIndependentOfChunking := by
  intro x y s
  obtain ⟨buf, es, hx⟩ := receiveAll_frame s x
  obtain ⟨buf', es', hy⟩ := receiveAll_frame (s.receiveAll x) y
  refine ⟨s.receiveAll x, (s.receiveAll x).receiveAll y, runOps_rxPushOps x s, runOps_rxPushOps y _, ?_, es, es', ?_, ?_⟩
  · rw [runOps_rxPushOps, State.receiveAll_append]
  · rw [hx]
  · rw [hy, hx]

/-- A response without its last byte waits for it, whatever its trailer (R126). -/
theorem atRest_of_last_byte_missing {e n c : Byte} {payload : List Byte} (hpay : payload.length = n.toNat)
    (heven : n.toNat % 2 = 0) (hlen : payload.length ≤ 252) : AtRest e ([e, 0x03, n] ++ payload ++ [c]) :=
  ⟨by simp; omega, .inr ⟨n, rfl, rfl, rfl, heven, by simp; omega⟩⟩

/-- All bytes of a valid response but the last only fill the buffer; the last makes a candidate that matches, and nothing is
left for the scan and the guard (R128, R138). -/
theorem receiveAll_of_valid_response {s : State} {n : Byte} {payload : List Byte} (hempty : s.rxbuf = [])
    (heven : n.toNat % 2 = 0) (hpay : payload.length = n.toNat) (hlen : payload.length ≤ 252) :
    s.receiveAll ([s.expaddr, 0x03, n] ++ payload ++
        [hi8 (crc16 ([s.expaddr, 0x03, n] ++ payload)), lo8 (crc16 ([s.expaddr, 0x03, n] ++ payload))]) =
      { s with evt := s.evt ++ [.frame s.lastreg payload] } := by
  have hrest : AtRest s.expaddr
      (s.rxbuf ++ ([s.expaddr, 0x03, n] ++ payload ++ [hi8 (crc16 ([s.expaddr, 0x03, n] ++ payload))])) := by
    rw [hempty]
    exact atRest_of_last_byte_missing hpay heven hlen
  rw [List.append_cons, State.receiveAll_append, receiveAll_of_atRest hrest, State.receiveAll_cons, State.receiveAll_nil,
    State.receive, scanDeliversMatch _ n payload [] heven hpay (by simp [hempty, hi8, lo8]),
    scan_guard_of_atRest (atRest_nil _)]
  simp [State.rxAppend, hempty]

/-- Settles O40: READ_RSP receives a valid response, whose header holds the length of its payload. -/
theorem validResponseIsDelivered : Obligations.ValidResponseIsDelivered := by
  intro payload s hempty heven hlen
  have hpay : payload.length = (BitVec.ofNat 8 payload.length).toNat := by
    rw [BitVec.toNat_ofNat, Nat.mod_eq_of_lt (by omega)]
  exact congrArg Host.Outcome.next (receiveAll_of_valid_response hempty (by rwa [← hpay]) hpay hlen)

/-- Settles O41: exec clears the buffer, and op 0x07 takes the seventh branch of the decoder. -/
theorem rxResetClearsBuffer : Obligations.RxResetClearsBuffer :=
  ⟨fun _ => rfl, selects_of_decodeCommand fun w hw => by simp [decodeCommand, hw]⟩

/-- Settles O42: exec writes the register, and op 0x08 takes the eighth branch of the decoder. -/
theorem setAddrWritesExpaddr : Obligations.SetAddrWritesExpaddr :=
  ⟨fun _ _ => rfl, selects_of_decodeCommand fun w hw => by simp [decodeCommand, hw]⟩

end Sys2Proof.Machine

/-! No packet stops the block (R58, R59, R131, R170). -/

namespace Sys2Proof.Machine

open Sys2Proof

theorem exec_completes (i : Instr) (s : State) : ∃ t, exec i s = .next t := by
  cases i <;> exact ⟨_, rfl⟩

theorem takeNoise_cmd (p : Packet) (s : State) : (s.takeNoise p).cmd = s.cmd := by
  cases p with
  | command _ => rfl
  | outbound _ => rfl
  | inbound bytes =>
    obtain ⟨buf, es, hframe⟩ := receiveAll_frame s bytes
    rw [State.takeNoise_inbound, hframe]

/-- Settles O5: a packet that decodes is run by exec, which completes and leaves CMD alone, and any other is noise. -/
theorem everyPacketCompletes : Obligations.EveryPacketCompletes := by
  intro s p rest hc
  cases hd : decode p with
  | ok i =>
    obtain ⟨t, ht⟩ := exec_completes i { s with cmd := rest }
    obtain ⟨-, -, -, -, -, hcmd⟩ := onlyNamedInstructionsWrite i _ t ht
    exact ⟨t, by rw [step_of_decode_ok hc hd, ht], hcmd⟩
  | error e => exact ⟨_, step_of_decode_error hc hd, takeNoise_cmd p _⟩

end Sys2Proof.Machine

/-! The sign rule and the Register Map (R153, R154). -/

namespace Sys2Proof.Machine

open Sys2Proof

/-- Settles O50: the sign rule's two branches, of a word below 65536. -/
theorem signRuleSubtracts65535 : Obligations.SignRuleSubtracts65535 := by
  have hrule : ∀ raw : Half, signedRaw raw =
      if raw.toNat > 32768 then (raw.toNat : Int) - 65535 else (raw.toNat : Int) := fun _ => rfl
  refine ⟨hrule, fun raw => ?_⟩
  have hraw : raw.toNat < 65536 := raw.isLt
  rw [hrule]
  split <;> omega

/-- The rows of the Register Map lie in 0x34 to 0x46. -/
theorem registerMap_range : ∀ row ∈ registerMap, 0x34 ≤ row.first ∧ row.last ≤ 0x46 := by decide

theorem lookupRegister_raw {addr : Nat} (h : addr < 0x34 ∨ 0x46 < addr) : lookupRegister addr = (.raw addr, 1) := by
  have hnone : registerMap.find? (fun row => decide (row.first ≤ addr ∧ addr ≤ row.last)) = none := by
    refine List.find?_eq_none.mpr fun row hrow => ?_
    obtain ⟨hfirst, hlast⟩ := registerMap_range row hrow
    simp only [decide_eq_true_eq]
    omega
  rw [lookupRegister, hnone]

/-- Settles O51: the nineteen named addresses, each looked up in the table, and those outside its range. -/
theorem registerMapLookup : Obligations.RegisterMapLookup :=
  ⟨⟨rfl, rfl, rfl⟩, ⟨rfl, rfl, rfl⟩, ⟨rfl, rfl, rfl⟩, ⟨rfl, rfl, rfl⟩, rfl, ⟨rfl, rfl, rfl⟩, ⟨rfl, rfl, rfl⟩,
    fun _ => lookupRegister_raw⟩

end Sys2Proof.Machine

/-! The walk (R151, R152, R156): the words of the payload, each delivered under its own address. -/

namespace Sys2Proof.Machine

open Sys2Proof

theorem payloadWords_length : ∀ payload : List Byte, (payloadWords payload).length = payload.length / 2
  | [] => rfl
  | [_] => by simp [payloadWords]
  | _ :: _ :: rest => by
    simp only [payloadWords, List.length_cons, payloadWords_length rest]
    omega

/-- Word k is the k-th pair, its first byte high (R151, D11). -/
theorem payloadWords_getElem? {payload : List Byte} {k : Nat} {b0 b1 : Byte} (h0 : payload[2 * k]? = some b0)
    (h1 : payload[2 * k + 1]? = some b1) : (payloadWords payload)[k]? = some (join b0 b1) := by
  induction k generalizing payload with
  | zero =>
    match payload, h0, h1 with
    | c0 :: c1 :: rest, h0, h1 => cases h0; cases h1; rfl
  | succ k ih =>
    match payload, h0, h1 with
    | c0 :: c1 :: rest, h0, h1 => exact ih h0 h1

/-- The walk delivers word k under the address k above the first, not reduced (R152, D14). -/
theorem walkWords_eq_mapIdx (addr : Nat) (words : List Half) :
    walkWords addr words = words.mapIdx fun k raw => deliver (addr + k) raw := by
  induction words generalizing addr with
  | nil => rfl
  | cons raw rest ih => simp [walkWords, ih, List.mapIdx_cons, Nat.add_assoc, Nat.add_comm 1]

/-- Settles O52: the words of the payload are its pairs, and the walk maps each by its index. -/
theorem walkDeliversEachWord : Obligations.WalkDeliversEachWord := by
  refine ⟨fun _ => rfl, fun r payload => ⟨_, rfl, ?_, fun k b0 b1 h0 h1 => ?_⟩⟩
  · rw [walkWords_eq_mapIdx, List.length_mapIdx, payloadWords_length]
  · rw [walkWords_eq_mapIdx, List.getElem?_mapIdx, payloadWords_getElem? h0 h1]
    rfl

end Sys2Proof.Machine

/-! What EVT tells of the buffer (R131, R179, R184): each event of a scan stands for bytes it removed from the head. -/

namespace Sys2Proof.Machine

open Sys2Proof

@[simp] theorem newEvents_self (s : State) : newEvents s s = [] := newEvents_of_evt (List.append_nil _).symm

/-- EVT only grows, so the events of two operations in a row are those of the first, then those of the second (R18). -/
theorem newEvents_append {s t u : State} (hst : s.evt <+: t.evt) (htu : t.evt <+: u.evt) :
    newEvents s u = newEvents s t ++ newEvents t u := by
  obtain ⟨es, hes⟩ := hst
  obtain ⟨es', hes'⟩ := htu
  rw [newEvents_of_evt hes.symm, newEvents_of_evt hes'.symm, newEvents_of_evt]
  rw [← hes', ← hes, List.append_assoc]

theorem newEvents_scan_of_scanTurn {s t : State} (ht : s.scanTurn = some t) :
    newEvents s t.scan = newEvents s t ++ newEvents t t.scan := by
  obtain ⟨n, e, ht', -⟩ := scanTurn_effect ht
  obtain ⟨m, es, hscan⟩ := scan_frame t
  exact newEvents_append ⟨[e], by rw [ht']⟩ ⟨es, by rw [hscan]⟩

theorem newEvents_drop (s : State) (c : DropCause) (b : Byte) : newEvents s ((s.emit (.drop c b)).rxDrop 1) = [.drop c b] :=
  newEvents_of_evt rfl

theorem newEvents_acceptFrame (s : State) (n : Byte) :
    newEvents s (s.acceptFrame n) = [.frame s.lastreg (responsePayload s.rxbuf n)] :=
  newEvents_of_evt rfl

/-- The bytes of an accepted candidate are those of the FRAME event, whose payload determines header and trailer (R127). -/
theorem rxbuf_of_accept {s : State} {n : Byte} (hv : s.verdict = .accept n) :
    s.rxbuf = eventBytes s.expaddr (.frame s.lastreg (responsePayload s.rxbuf n)) ++ s.rxbuf.drop (responseLength n) := by
  obtain ⟨⟨rest, hbuf⟩, -, hlen, htrailer⟩ := headTest_accept hv
  have hpay : (responsePayload s.rxbuf n).length = n.toNat := by
    simp only [responseLength, Config.rspOverhead] at hlen
    rw [responsePayload, List.length_take, List.length_drop]
    omega
  have hbody : s.rxbuf.take (responseLength n - 2) = [s.expaddr, 0x03, n] ++ responsePayload s.rxbuf n := by
    simp [responsePayload, responseLength, hbuf]
  have hsplit := trailerMatches_split (by simp [responseLength]) htrailer
  rw [hbody] at hsplit
  simpa only [eventBytes, hpay, BitVec.ofNat_toNat, BitVec.setWidth_eq] using hsplit

theorem scanTurn_accounts {s t : State} (ht : s.scanTurn = some t) :
    t.expaddr = s.expaddr ∧ s.rxbuf = (newEvents s t).flatMap (eventBytes s.expaddr) ++ t.rxbuf := by
  obtain ⟨c, b, hv, rfl⟩ | ⟨n, hv, rfl⟩ := scanTurn_cases ht
  · obtain ⟨-, rest, hbuf⟩ := headTest_mismatch hv
    simp [newEvents_drop, eventBytes, hbuf]
  · rw [newEvents_acceptFrame, List.flatMap_singleton]
    exact ⟨rfl, rxbuf_of_accept hv⟩

/-- A scan removes exactly the bytes of its events (R184). -/
theorem scan_accounts (s : State) : s.rxbuf = (newEvents s s.scan).flatMap (eventBytes s.expaddr) ++ s.scan.rxbuf := by
  refine scan_induction (P := fun s u => s.rxbuf = (newEvents s u).flatMap (eventBytes s.expaddr) ++ u.rxbuf)
    (fun s _ => by simp) ?_ s
  intro s t ht ih
  obtain ⟨haddr, hturn⟩ := scanTurn_accounts ht
  rw [haddr] at ih
  rw [newEvents_scan_of_scanTurn ht, List.flatMap_append, List.append_assoc, ← ih, ← hturn]

/-- A DROP removes one byte of at least five, so a scan that starts with five or more leaves four that it did not drop
(R122, R179). -/
theorem scan_countP_isDrop_le (s : State) : (newEvents s s.scan).countP Event.isDrop ≤ s.rxbuf.length - 4 := by
  refine scan_induction (P := fun s u => (newEvents s u).countP Event.isDrop ≤ s.rxbuf.length - 4) (fun s _ => by simp) ?_ s
  intro s t ht ih
  rw [newEvents_scan_of_scanTurn ht, List.countP_append]
  obtain ⟨c, b, hv, rfl⟩ | ⟨n, -, rfl⟩ := scanTurn_cases ht
  · obtain ⟨hlen, -⟩ := headTest_mismatch hv
    have hone : (newEvents s ((s.emit (.drop c b)).rxDrop 1)).countP Event.isDrop = 1 := by rw [newEvents_drop]; rfl
    rw [State.rxDrop_rxbuf, State.emit_rxbuf, List.length_drop] at ih
    omega
  · have hnone : (newEvents s (s.acceptFrame n)).countP Event.isDrop = 0 := by rw [newEvents_acceptFrame]; rfl
    rw [State.acceptFrame_rxbuf, List.length_drop] at ih
    omega

theorem scan_isOverflow_eq_false {s : State} {e : Event} (he : e ∈ newEvents s s.scan) : e.isOverflow = false := by
  obtain ⟨es, hevt, hes, -⟩ := scan_events s
  rw [newEvents_of_evt hevt] at he
  cases e with
  | overflow n =>
    obtain hdrop | ⟨payload, hframe⟩ := hes _ he
    · cases hdrop
    · cases hframe
  | _ => rfl

/-- The events of one RX_BYTE are those of its scan, behind which a clear adds an OVERFLOW of the length it cleared (R130). -/
theorem receive_cases (s : State) (b : Byte) :
    (newEvents s (s.receive b) =
        newEvents (s.rxAppend b) (s.rxAppend b).scan ++ [.overflow (s.rxAppend b).scan.rxbuf.length] ∧
      (s.receive b).rxbuf = []) ∨
    (newEvents s (s.receive b) = newEvents (s.rxAppend b) (s.rxAppend b).scan ∧
      (s.receive b).rxbuf = (s.rxAppend b).scan.rxbuf) := by
  obtain ⟨es, hevt, -⟩ := scan_events (s.rxAppend b)
  rw [newEvents_of_evt hevt, State.receive]
  rw [State.rxAppend_evt] at hevt
  obtain ⟨-, hg⟩ | ⟨-, hg⟩ := guard_cases (s.rxAppend b).scan
  · rw [hg]
    exact .inl ⟨newEvents_of_evt (by rw [hevt, List.append_assoc]), rfl⟩
  · rw [hg]
    exact .inr ⟨newEvents_of_evt hevt, rfl⟩

/-- Settles O34: the scan accounts for what it removed from the buffer with the new byte, and what it left is either still
there or cleared and counted by the OVERFLOW. -/
theorem rxByteAccountsForEveryByte : Obligations.RxByteAccountsForEveryByte := by
  intro b s
  have hscan := scan_accounts (s.rxAppend b)
  rw [State.rxAppend_rxbuf, State.rxAppend_expaddr] at hscan
  obtain ⟨hnew, hbuf⟩ | ⟨hnew, hbuf⟩ := receive_cases s b
  · refine ⟨s.receive b, (s.rxAppend b).scan.rxbuf, exec_rxByte b s, ?_,
      .inr ⟨hbuf, _, hnew, fun _ => scan_isOverflow_eq_false⟩⟩
    rw [hnew, hbuf, hscan]
    simp [eventBytes]
  · refine ⟨s.receive b, [], exec_rxByte b s, ?_, .inl ⟨rfl, ?_⟩⟩
    · rw [hnew, hbuf, List.append_nil, hscan]
    · rw [hnew]
      exact fun _ => scan_isOverflow_eq_false

/-- Settles O36: the scan starts with at most 257 bytes and cannot drop the last four, and an OVERFLOW is no DROP. -/
theorem dropChainAtMost253 : Obligations.DropChainAtMost253 := by
  intro b s hcap
  have hscan := scan_countP_isDrop_le (s.rxAppend b)
  rw [State.rxAppend_rxbuf, List.length_append, List.length_singleton] at hscan
  refine ⟨s.receive b, exec_rxByte b s, ?_⟩
  have hdrops : (newEvents s (s.receive b)).countP Event.isDrop =
      (newEvents (s.rxAppend b) (s.rxAppend b).scan).countP Event.isDrop := by
    obtain ⟨hnew, -⟩ | ⟨hnew, -⟩ := receive_cases s b
    · rw [hnew, List.countP_append]
      rfl
    · rw [hnew]
  omega

theorem evt_prefix_receiveAll (s : State) (bytes : List Byte) : s.evt <+: (s.receiveAll bytes).evt := by
  obtain ⟨buf, es, hframe⟩ := receiveAll_frame s bytes
  exact ⟨es, by rw [hframe]⟩

/-- Every frame that received bytes complete carries LASTREG, which none of them writes (R14, R128). -/
theorem receiveAll_frame_key {s : State} {bytes : List Byte} {k : Option Half} {payload : List Byte}
    (hmem : .frame k payload ∈ newEvents s (s.receiveAll bytes)) : k = s.lastreg := by
  induction bytes generalizing s with
  | nil => simp at hmem
  | cons b bytes ih =>
    obtain ⟨t, hexec, hlast, hkeys⟩ := frameKeyIsLastregAtMatch b s
    cases hexec
    rw [State.receiveAll_cons, newEvents_append (t := s.receive b) (evt_prefix_receiveAll s [b])
      (evt_prefix_receiveAll _ bytes), List.mem_append] at hmem
    obtain hfirst | hlater := hmem
    · exact hkeys k payload hfirst
    · rw [ih hlater, hlast]

/-- R186 for one change of state: a LASTREG that is some stays some, and no event added is a
FRAME without a key. -/
def KeepsKey (s t : State) : Prop :=
  s.lastreg ≠ none → t.lastreg ≠ none ∧ ∀ payload, .frame none payload ∉ newEvents s t

theorem keepsKey_of_evt_eq {s t : State} (hevt : t.evt = s.evt) (hkey : s.lastreg ≠ none → t.lastreg ≠ none) :
    KeepsKey s t := by
  refine fun hs => ⟨hkey hs, ?_⟩
  simp [newEvents_of_evt (es := []) (hevt.trans (List.append_nil _).symm)]

theorem keepsKey_emit {s : State} {e : Event} (he : e.isFrame = false) : KeepsKey s (s.emit e) := by
  refine fun hs => ⟨hs, fun payload hmem => ?_⟩
  rw [newEvents_of_evt (s.emit_evt e), List.mem_singleton] at hmem
  subst hmem
  cases he

theorem keepsKey_receiveAll (s : State) (bytes : List Byte) : KeepsKey s (s.receiveAll bytes) := by
  obtain ⟨buf, es, hframe⟩ := receiveAll_frame s bytes
  exact fun hs => ⟨by rwa [hframe], fun payload hmem => hs (receiveAll_frame_key hmem).symm⟩

/-- Of the seven kinds of effect only a read request writes LASTREG, and only received bytes deliver frames (R14, R128). -/
theorem keepsKey_exec {i : Instr} {s t : State} (h : exec i s = .next t) : KeepsKey s t := by
  obtain ⟨acc, rfl, -⟩ | ⟨e, rfl, hi⟩ | ⟨d, r, n, rfl, -⟩ | ⟨d, r, v, rfl, -⟩ | ⟨bytes, rfl, -⟩ | ⟨-, rfl⟩ |
    ⟨a, -, rfl⟩ := exec_cases h
  · exact keepsKey_of_evt_eq rfl id
  · obtain ⟨-, rfl⟩ | ⟨op, -, rfl⟩ := hi
    · exact keepsKey_emit rfl
    · exact keepsKey_emit rfl
  · exact keepsKey_of_evt_eq rfl fun _ => by simp
  · exact keepsKey_of_evt_eq rfl id
  · exact keepsKey_receiveAll s bytes
  · exact keepsKey_of_evt_eq rfl id
  · exact keepsKey_of_evt_eq rfl id

theorem keepsKey_takeNoise (s : State) (p : Packet) : KeepsKey s (s.takeNoise p) := by
  cases p with
  | inbound bytes => exact keepsKey_receiveAll s bytes
  | _ => exact keepsKey_of_evt_eq rfl id

/-- Settles O38: taking a packet from CMD touches neither LASTREG nor EVT, and what runs then keeps the key. -/
theorem noKeylessFrameAfterBuildRead : Obligations.NoKeylessFrameAfterBuildRead := by
  intro s t hs h
  obtain ⟨-, rfl⟩ | ⟨p, rest, -, ⟨i, -, hexec⟩ | ⟨e, -, rfl⟩⟩ := step_cases h
  · exact keepsKey_of_evt_eq rfl id hs
  · exact keepsKey_exec (s := { s with cmd := rest }) hexec hs
  · exact keepsKey_takeNoise { s with cmd := rest } p hs

end Sys2Proof.Machine

/-! The state after reset (R201). -/

namespace Sys2Proof.Machine

open Sys2Proof

/-- Settles O1: each field of reset is the value R201 names. -/
theorem resetLeavesSpecState : Obligations.ResetLeavesSpecState := ⟨rfl, rfl, rfl, rfl, rfl, rfl, rfl⟩

/-- Settles O47: reset leaves RXBUF, EVT and TX empty, which is all that the invariant speaks of. -/
theorem resetHasInv : Obligations.ResetHasInv := by
  obtain ⟨-, -, -, -, hrxbuf, htx, hevt⟩ := resetLeavesSpecState
  refine ⟨?_, ?_, ?_⟩
  · simp [hrxbuf]
  · simp [hevt]
  · simp [htx]

end Sys2Proof.Machine
